-- ==== Sys2Proof/Word.lean ====
section
/-! DEFINITION. The words of the block: the 64-bit command word (R80), the 32-bit STATUS word (R31), the byte of the
transfer buffer and the wire (R26, R88) and the 6-bit stored channel (R22). -/

namespace Sys2Proof

/-- One byte: a transfer-buffer element, a wire byte, an 8-bit input channel (R22, R26, R88). -/
abbrev Byte := BitVec 8

/-- A stored colour channel, 6 bits unsigned (R22). -/
abbrev Channel := BitVec 6

/-- CMD_BITS (R9, R80): the width of a command word, at its default. The opcode map is laid out for this width (R81, R83). -/
abbrev cmdBits : Nat := 64

/-- COORD_BITS (R9, R82): the width of X and Y, at its default. The formats are laid out for this width (R81). -/
abbrev coordBits : Nat := 8

/-- A command word, presented whole on the host interface (R80). -/
abbrev CmdWord := BitVec cmdBits

/-- The STATUS register's word (R31). -/
abbrev StatusWord := BitVec 32

end Sys2Proof
end

