-- ==== Sys2Proof/Syntax.lean ====
section
/-! DEFINITION. The block's nine commands, one constructor per row of spec/opcode_table.json (R83), with their operands as
R82 reads them: X, Y and DEG are two's-complement integers, R, G, B and BR are unsigned bytes. -/

namespace Sys2Proof

/-- A host command (R83). -/
inductive Instr where
  /-- SET_PIXEL X, Y, R, G, B (R114). -/
  | setPixel (x y : Int) (r g b : Byte)
  /-- SET_ALL R, G, B (R115). -/
  | setAll (r g b : Byte)
  /-- CLEAR (R116). -/
  | clear
  /-- SET_ROTATION DEG (R117). -/
  | setRotation (deg : Int)
  /-- GET_SHAPE (R118). -/
  | getShape
  /-- SHOW (R152). -/
  | showPanels
  /-- SET_BRIGHTNESS BR (R174). -/
  | setBrightness (br : Byte)
  /-- INIT (R176). -/
  | init
  /-- SHUTDOWN (R177). -/
  | shutdown
  deriving DecidableEq, Repr

end Sys2Proof
end

