-- ==== Sys2Proof/WellFormed.lean ====
section
/-! DEFINITION. Which commands have a word: the operand ranges of R82 (what an assembler refuses, R86). R, G, B and BR are
bytes by type; X, Y and DEG are integers and are checked here. -/

namespace Sys2Proof

/-- X or Y fits its two's-complement field of COORD_BITS bits, that is lies in [-128, 127] (R82). -/
abbrev CoordFits (v : Int) : Prop := -(2 : Int) ^ (coordBits - 1) ≤ v ∧ v < (2 : Int) ^ (coordBits - 1)

/-- DEG fits its 32-bit two's-complement field (R82). -/
abbrev DegFits (v : Int) : Prop := -2147483648 ≤ v ∧ v ≤ 2147483647

/-- The command's operands fit their fields (R82, R86). An operand out of range for the OPERATION is still well formed (R85). -/
def Instr.wellFormed : Instr → Bool
  | .setPixel x y _ _ _ => decide (CoordFits x) && decide (CoordFits y)
  | .setAll _ _ _ => true
  | .clear => true
  | .setRotation deg => decide (DegFits deg)
  | .getShape => true
  | .showPanels => true
  | .setBrightness _ => true
  | .init => true
  | .shutdown => true

end Sys2Proof
end

