-- ==== Sys2Proof/Decode.lean ====
section
/-! DEFINITION. The command word's decoder and encoder (R80 to R85), from the opcode map of R83: a word selects the row whose
mask and match it meets. Decoding is total on all 2^64 words and rejects by name (R84). -/

namespace Sys2Proof

/-- A row of the opcode map (R83). -/
inductive Row where
  | setPixel | setAll | clear | setRotation | getShape | showPanels | setBrightness | init | shutdown
  deriving DecidableEq, Repr

/-- The rows in the order of the opcode map (R83). -/
def Row.all : List Row :=
  [.setPixel, .setAll, .clear, .setRotation, .getShape, .showPanels, .setBrightness, .init, .shutdown]

/-- The row's mask: OP and every reserved bit of its format (R81, R83). -/
def Row.mask : Row → CmdWord
  | .setPixel => 0xFF0000FFFF000000#64
  | .setAll => 0xFFFFFFFFFF000000#64
  | .clear => 0xFFFFFFFFFFFFFFFF#64
  | .setRotation => 0xFFFFFFFF00000000#64
  | .getShape => 0xFFFFFFFFFFFFFFFF#64
  | .showPanels => 0xFFFFFFFFFFFFFFFF#64
  | .setBrightness => 0xFFFFFFFFFFFFFF00#64
  | .init => 0xFFFFFFFFFFFFFFFF#64
  | .shutdown => 0xFFFFFFFFFFFFFFFF#64

/-- The row's OP value, W[63:56] (R80, R83). -/
def Row.opcode : Row → Byte
  | .setPixel => 0x01#8
  | .setAll => 0x02#8
  | .clear => 0x03#8
  | .setRotation => 0x04#8
  | .getShape => 0x05#8
  | .showPanels => 0x06#8
  | .setBrightness => 0x07#8
  | .init => 0x08#8
  | .shutdown => 0x09#8

/-- The row's match: its OP, with every reserved bit zero (R83). -/
def Row.pattern (row : Row) : CmdWord := row.opcode ++ 0#56

/-- The word selects the row: (W & mask) == match (R83). -/
def Row.selects (row : Row) (w : CmdWord) : Bool := w &&& row.mask == row.pattern

/-- The opcode field OP = W[63:56] (R80). -/
def opField (w : CmdWord) : Byte := w.extractLsb' 56 8
/-- X = sint(W[55:48]) (R82). -/
def xField (w : CmdWord) : Int := (w.extractLsb' 48 coordBits).toInt
/-- Y = sint(W[47:40]) (R82). -/
def yField (w : CmdWord) : Int := (w.extractLsb' 40 coordBits).toInt
/-- R = W[23:16] (R82). -/
def rField (w : CmdWord) : Byte := w.extractLsb' 16 8
/-- G = W[15:8] (R82). -/
def gField (w : CmdWord) : Byte := w.extractLsb' 8 8
/-- B = W[7:0] (R82). -/
def bField (w : CmdWord) : Byte := w.extractLsb' 0 8
/-- DEG = sint(W[31:0]) (R82). -/
def degField (w : CmdWord) : Int := (w.extractLsb' 0 32).toInt
/-- BR = W[7:0] (R82). -/
def brField (w : CmdWord) : Byte := w.extractLsb' 0 8

/-- The command a word of this row stands for, its operands assembled as R82 says. -/
def Row.read (row : Row) (w : CmdWord) : Instr :=
  match row with
  | .setPixel => .setPixel (xField w) (yField w) (rField w) (gField w) (bField w)
  | .setAll => .setAll (rField w) (gField w) (bField w)
  | .clear => .clear
  | .setRotation => .setRotation (degField w)
  | .getShape => .getShape
  | .showPanels => .showPanels
  | .setBrightness => .setBrightness (brField w)
  | .init => .init
  | .shutdown => .shutdown

/-- Why a word is an illegal command (R84). -/
inductive IllegalWord where
  /-- OP is 0x00 or in 0x0A to 0xFF. -/
  | unassignedOpcode
  /-- OP is assigned and a reserved bit of its format is not zero. -/
  | reservedBitSet
  deriving DecidableEq, Repr

/-- Decoding of one command word, total (R80 to R84). -/
def decode (w : CmdWord) : Except IllegalWord Instr :=
  match Row.all.find? (fun row => row.selects w) with
  | some row => .ok (row.read w)
  | none =>
    if Row.all.any (fun row => row.opcode == opField w) then .error .reservedBitSet
    else .error .unassignedOpcode

/-- The word of a command: FMT_PIXEL, FMT_RGB, FMT_ROT, FMT_BR or FMT_NONE with every reserved bit zero (R81). -/
def encode : Instr → CmdWord
  | .setPixel x y r g b =>
      (0x01#8 ++ BitVec.ofInt coordBits x ++ BitVec.ofInt coordBits y ++ 0#16 ++ r ++ g ++ b : CmdWord)
  | .setAll r g b => (0x02#8 ++ 0#32 ++ r ++ g ++ b : CmdWord)
  | .clear => (0x03#8 ++ 0#56 : CmdWord)
  | .setRotation deg => (0x04#8 ++ 0#24 ++ BitVec.ofInt 32 deg : CmdWord)
  | .getShape => (0x05#8 ++ 0#56 : CmdWord)
  | .showPanels => (0x06#8 ++ 0#56 : CmdWord)
  | .setBrightness br => (0x07#8 ++ 0#48 ++ br : CmdWord)
  | .init => (0x08#8 ++ 0#56 : CmdWord)
  | .shutdown => (0x09#8 ++ 0#56 : CmdWord)

/-- The row a command belongs to (R83). -/
def Instr.row : Instr → Row
  | .setPixel _ _ _ _ _ => .setPixel
  | .setAll _ _ _ => .setAll
  | .clear => .clear
  | .setRotation _ => .setRotation
  | .getShape => .getShape
  | .showPanels => .showPanels
  | .setBrightness _ => .setBrightness
  | .init => .init
  | .shutdown => .shutdown

/-- What the decoder reads from the low `nbits` bits of `w`, numbered as spec/opcode_table.json numbers them: the command
word is one 64-bit word, so the numbering is the word's own. -/
def decodeTableWord (nbits w : Nat) : Option Instr :=
  match decode (BitVec.ofNat cmdBits (w % 2 ^ nbits)) with
  | .ok i => if nbits ≤ cmdBits then some i else none
  | .error _ => none

end Sys2Proof
end

