-- ==== Sys2Proof/Config.lean ====
section
/-! DEFINITION. What an implementation fixes: the SPI link of R8 (its sizes stand as numerals in the types: 17 columns,
7 rows, 119 slots, 448 bytes, 224 bytes a panel), the types of the parameters of R9, and the free values the
spec leaves open, each an opaque constant without a body. The parameters are gathered, with the spec's defaults, in
Machine/Params.lean. -/

namespace Sys2Proof

/-- SPI_CLK_MAX in hertz (R8, R91). -/
abbrev spiClkMax : Nat := 600000
/-- SPI_MODE (R8). No rule depends on it (R91). -/
abbrev spiMode : Nat := 0
/-- SPI_WORD_BITS (R8): one wire byte is one SPI word. -/
abbrev spiWordBits : Nat := 8

/-- OPEN (R9, D21, log 7): which labels are values of the platform's error type. -/
opaque Config.isIOError : Nat → Bool

/-- IOError, an OPEN type parameter (R9, D21): its values are the labels the open predicate admits, and the label 0, so that
the type has a value. It stands for any countable type with a value; the block only copies its values (log 7). -/
structure IOError where
  label : {n : Nat // n = 0 ∨ Config.isIOError n = true}
  deriving DecidableEq, Repr

/-- CONN_A, CONN_B: opaque SPI connection identities (R9, R29). DESIGN CHOICE (log 7): a label. -/
structure ConnId where
  id : Nat
  deriving DecidableEq, Repr, Inhabited

/-- CS_A, CS_B: opaque GPIO pin identities (R9, R29). DESIGN CHOICE (log 7): a label. -/
structure PinId where
  id : Nat
  deriving DecidableEq, Repr, Inhabited

/-- A duration, of SETTLE_DELAY (R9, R178): the label of the Sleep event. DESIGN CHOICE (log 7). -/
structure Duration where
  ticks : Nat
  deriving DecidableEq, Repr, Inhabited

/-- COORD_DOMAIN (R9, R112). -/
inductive CoordDomain where
  | shape
  | fixed
  | indexOnly
  deriving DecidableEq, Repr

/-- One entry of the lookup table (R28). The offsets' type is LUT-RANGE: each lies in [0, 448). -/
structure LutEntry where
  ro : Fin 448
  go : Fin 448
  bo : Fin 448
  deriving DecidableEq, Repr, Inhabited

/-- The lookup table, indexed by slot; NSLOTS = 119 (R8, R28). -/
abbrev Lut := Vector LutEntry 119

/-- The 357 offsets of a table, in slot order and red, green, blue within a slot (R28, R150). -/
def Lut.offsets (lut : Lut) : List Nat :=
  lut.toList.flatMap fun e => [e.ro.val, e.go.val, e.bo.val]

/-- LUT-DISTINCT: the 357 offsets are pairwise distinct (R28, D17). -/
abbrev Lut.Distinct (lut : Lut) : Prop := lut.offsets.Nodup

/-- The platform's answer to a PinWrite or a SpiTransfer: Ok, Err(e), or no answer ever (R12, R67, D21). -/
inductive Answer where
  | ok
  | err (e : IOError)
  | never
  deriving DecidableEq, Repr, Inhabited

/-- The error of an answer, where it is one. -/
def Answer.error : Answer → Option IOError
  | .ok => none
  | .err e => some e
  | .never => none

namespace Config

/-- FREE VALUE (log 2): the platform's answer to the draw with this number, where no script fixes it (R67, D21). -/
opaque freeAnswer : Nat → Answer

/-- OPEN (R9, R28): the lookup table before LUT-DISTINCT is asked of it (log 4). -/
opaque rawLut : Lut

/-- OPEN (R9, R91): the SPI clock rate in hertz before the bound is asked of it (log 4). -/
opaque rawSpiClk : Nat

/-- OPEN (R9, R29). -/
opaque connA : ConnId
/-- OPEN (R9, R29). -/
opaque connB : ConnId
/-- OPEN (R9, R29). -/
opaque csA : PinId
/-- OPEN (R9, R29). -/
opaque csB : PinId
/-- OPEN (R9, R178). -/
opaque settleDelay : Duration
/-- OPEN (R9, R88). -/
opaque argsSoftReset : List Byte
/-- OPEN (R9, R88). -/
opaque argsScrollOff : List Byte
/-- OPEN (R9, R88). -/
opaque argsSysOff : List Byte
/-- OPEN (R9, R88). -/
opaque argsSysOn : List Byte
/-- OPEN (R9, R88). -/
opaque argsComOn : List Byte
/-- OPEN (R9, R88). -/
opaque argsComOff : List Byte
/-- OPEN (R9, R88). -/
opaque argsRowOn : List Byte
/-- OPEN (R9, R88). -/
opaque argsRowOff : List Byte
/-- OPEN (R9, R88). -/
opaque wdPrefix : List Byte

end Config

end Sys2Proof
end

