-- ==== Sys2Proof/Machine/Params.lean ====
section
/-! DEFINITION. The block's parameters (R9) as one record, with the value the machine after reset has for each: the spec's
default where it gives one, an opaque constant of Config where it leaves the parameter open (log 3, log 4). -/

namespace Sys2Proof.Machine

/-- The parameters of R9 and the constants LUT and PANEL of R20. No step changes them. -/
structure Params where
  /-- COORD_DOMAIN (R112). -/
  coordDomain : CoordDomain
  /-- SHOW_SHORT_CIRCUIT (R152, R174). -/
  showShortCircuit : Bool
  /-- SEQ_ABORT (R176, R177). -/
  seqAbort : Bool
  /-- LUT (R28). -/
  lut : Lut
  /-- CONN_A (R29). -/
  connA : ConnId
  /-- CONN_B (R29). -/
  connB : ConnId
  /-- CS_A (R29). -/
  csA : PinId
  /-- CS_B (R29). -/
  csB : PinId
  /-- SETTLE_DELAY (R178). -/
  settleDelay : Duration
  /-- ARGS_SOFT_RESET (R88). -/
  argsSoftReset : List Byte
  /-- ARGS_BRIGHT, a function of the 6-bit code: its value at each code (R9, R88, R89). -/
  argsBright : Vector (List Byte) 64
  /-- ARGS_SCROLL_OFF (R88). -/
  argsScrollOff : List Byte
  /-- ARGS_SYS_OFF (R88). -/
  argsSysOff : List Byte
  /-- ARGS_SYS_ON (R88). -/
  argsSysOn : List Byte
  /-- ARGS_COM_ON (R88). -/
  argsComOn : List Byte
  /-- ARGS_COM_OFF (R88). -/
  argsComOff : List Byte
  /-- ARGS_ROW_ON (R88). -/
  argsRowOn : List Byte
  /-- ARGS_ROW_OFF (R88). -/
  argsRowOff : List Byte
  /-- WD_PREFIX (R88). -/
  wdPrefix : List Byte
  /-- SPI_CLK in hertz (R91). No rule reads it. -/
  spiClk : Nat
  /-- CMD_BITS (R9, R80). -/
  cmdBits : Nat
  /-- COORD_BITS (R9, R82). -/
  coordBits : Nat
  deriving DecidableEq, Repr

/-- What the spec asks of the parameters: LUT-DISTINCT (R28; LUT-RANGE holds by type) and the clock bound (R91); and that the
two widths are the ones the encoding is laid out for (R80 to R83, log 3). -/
abbrev Params.wf (P : Params) : Prop :=
  P.lut.Distinct ∧ P.spiClk ≤ spiClkMax ∧ P.cmdBits = Sys2Proof.cmdBits ∧ P.coordBits = Sys2Proof.coordBits

/-- The default ARGS_BRIGHT(c) = [c] (R9, R88, R89, D15). -/
def defaultArgsBright : Vector (List Byte) 64 := Vector.ofFn fun c => [BitVec.ofNat 8 c.val]

/-- A table that meets LUT-DISTINCT, used only to keep `openLut` inside the legal tables (log 4). -/
def spreadLut : Lut :=
  Vector.ofFn fun i => ⟨⟨3 * i.val, by omega⟩, ⟨3 * i.val + 1, by omega⟩, ⟨3 * i.val + 2, by omega⟩⟩

/-- The open parameter LUT: any table that meets LUT-DISTINCT (R9, R28, log 4). -/
def openLut : Lut := if Config.rawLut.Distinct then Config.rawLut else spreadLut

/-- The open parameter SPI_CLK: any rate up to SPI_CLK_MAX (R9, R91, log 4). -/
def openSpiClk : Nat := min Config.rawSpiClk spiClkMax

/-- The parameters of the machine after reset (R9, log 3). -/
def resetParams : Params where
  coordDomain := .shape
  showShortCircuit := false
  seqAbort := true
  lut := openLut
  connA := Config.connA
  connB := Config.connB
  csA := Config.csA
  csB := Config.csB
  settleDelay := Config.settleDelay
  argsSoftReset := Config.argsSoftReset
  argsBright := defaultArgsBright
  argsScrollOff := Config.argsScrollOff
  argsSysOff := Config.argsSysOff
  argsSysOn := Config.argsSysOn
  argsComOn := Config.argsComOn
  argsComOff := Config.argsComOff
  argsRowOn := Config.argsRowOn
  argsRowOff := Config.argsRowOff
  wdPrefix := Config.wdPrefix
  spiClk := openSpiClk
  cmdBits := Sys2Proof.cmdBits
  coordBits := Sys2Proof.coordBits

end Sys2Proof.Machine
end

