-- ==== Sys2Proof/Machine/State.lean ====
section
/-! DEFINITION. The block's architectural state (R20) as plain data, the machine after reset (R240), and the reasons a step
can stop. The fields `cmds` and `platform` are the model's own: the inputs of the host and of the platform. -/

namespace Sys2Proof.Machine

/-- A stored pixel: three 6-bit channels (R22). -/
structure Rgb where
  r : Channel
  g : Channel
  b : Channel
  deriving DecidableEq, Repr

/-- (0, 0, 0) (R22, R116). -/
def Rgb.black : Rgb := ⟨0, 0, 0⟩

/-- The frame buffer: 119 slots in the unrotated storage order (R22, R61). -/
abbrev FrameBuffer := Vector Rgb 119

/-- ROT (R24). -/
inductive Rotation where
  | deg0
  | deg90
  | deg180
  | deg270
  deriving DecidableEq, Repr

/-- PHASE (R30). -/
inductive Phase where
  | uninit
  | ready
  deriving DecidableEq, Repr

/-- A panel (R29). -/
inductive Panel where
  | a
  | b
  deriving DecidableEq, Repr

/-- The level a PinWrite drives (R12). -/
inductive Level where
  | low
  | high
  deriving DecidableEq, Repr

/-- The step of a failing transfer (R31, R170). -/
inductive XferStep where
  | pinLow
  | spi
  | pinHigh
  deriving DecidableEq, Repr

/-- An entry of EV: a platform call with its result (R12, R35). A call the platform never answers stands with the result
`never` (log 8). -/
inductive Event where
  | pinWrite (pin : PinId) (level : Level) (result : Answer)
  | spiTransfer (conn : ConnId) (bytes : List Byte) (result : Answer)
  | sleep (d : Duration)
  deriving DecidableEq, Repr

/-- What a failed frame leaves for `finish` to report: panel, step, EFRAME index and the platform's error (R213). -/
structure Failure where
  panel : Panel
  step : XferStep
  frame : Nat
  error : IOError
  deriving DecidableEq, Repr

/-- How a command completes: the code of R211 with the fields its `finish` names. -/
inductive Completion where
  | ok
  | shape (w h : Nat)
  | configError
  | transportError (f : Failure)
  | illegalCommand
  | notInitialised
  deriving DecidableEq, Repr

/-- The transfer buffer, byte-addressed (R26, R62): (offset, byte) pairs in rising order of offset, none equal to the reset
byte 0x00 an unlisted offset reads as. -/
abbrev Memory := List Host.Cell

/-- The platform as an input (R226): its next answers where they are fixed, and how many it has given (log 2). -/
structure Platform where
  script : List Answer
  drawn : Nat
  deriving DecidableEq, Repr

/-- The block's state (R20), its constants (R20, R9), and its two inputs. -/
structure State where
  /-- The parameters and constants (R9, R28, R29). -/
  params : Params
  /-- FB (R22). -/
  fb : FrameBuffer
  /-- ROT (R24). -/
  rot : Rotation
  /-- TB (R26). -/
  tb : Memory
  /-- PHASE (R30). -/
  phase : Phase
  /-- STATUS (R31). -/
  status : StatusWord
  /-- ERR_IO (R33). -/
  errIo : Option IOError
  /-- BUSY (R34). -/
  busy : Bool
  /-- EV, oldest first (R35). -/
  ev : List Event
  /-- The command words the host presents, next one first; those not yet accepted stay here (R34, R246, log 6). -/
  cmds : List CmdWord
  /-- The platform's answers to come (R67, log 2). -/
  platform : Platform
  deriving DecidableEq, Repr

/-- The block has no trap and no fault (R210): a step never ends in one, so there is no constructor. -/
inductive Fault where
  deriving DecidableEq, Repr

/-- Reasons a step has no meaning. -/
inductive Refusal where
  /-- Raised only by an arm of `exec` whose instruction has no meaning yet; safe. No arm raises it. -/
  | notModelled (mnemonic : String)
  deriving DecidableEq, Repr

/-- The machine right after reset (R240). `params`, `cmds` and `platform` are not the block's registers (log 2, log 3, log 6). -/
def State.reset : State where
  params := resetParams
  fb := Vector.replicate 119 Rgb.black
  rot := .deg0
  tb := []
  phase := .uninit
  status := 0
  errIo := none
  busy := false
  ev := []
  cmds := []
  platform := { script := [], drawn := 0 }

end Sys2Proof.Machine
end

