-- ==== Sys2Proof/Machine/Flags.lean ====
section
/-! DEFINITION. The flags of the block: the STATUS word (R31), assembled from what a command's `finish` names (R13, R32), its
fields, and the value ERR_IO takes (R33). -/

namespace Sys2Proof.Machine

/-- The 2-bit code of ROT (R24). -/
def Rotation.code : Rotation → BitVec 2
  | .deg0 => 0b00#2
  | .deg90 => 0b01#2
  | .deg180 => 0b10#2
  | .deg270 => 0b11#2

/-- The 1-bit code of PHASE (R30). -/
def Phase.code : Phase → BitVec 1
  | .uninit => 0#1
  | .ready => 1#1

/-- EPANEL (R31): 0 = A, 1 = B. -/
def Panel.code : Panel → BitVec 1
  | .a => 0#1
  | .b => 1#1

/-- EPHASE (R31): 0 PIN_LOW, 1 SPI, 2 PIN_HIGH. -/
def XferStep.code : XferStep → BitVec 2
  | .pinLow => 0#2
  | .spi => 1#2
  | .pinHigh => 2#2

/-- STATUS.CODE (R31, R211). -/
def Completion.code : Completion → BitVec 4
  | .ok => 0#4
  | .shape _ _ => 0#4
  | .configError => 1#4
  | .transportError _ => 2#4
  | .illegalCommand => 3#4
  | .notInitialised => 4#4

/-- STATUS from its fields, with the reserved bits [7] and [15:12] zero (R31). -/
def packStatus (shapeH shapeW : BitVec 8) (eframe : BitVec 4) (ephase : BitVec 2) (epanel : BitVec 1)
    (code : BitVec 4) : StatusWord :=
  (shapeH ++ shapeW ++ 0#4 ++ eframe ++ 0#1 ++ ephase ++ epanel ++ code : BitVec 32)

/-- The STATUS word of a completion: a field its `finish` does not name is 0 (R13, R32). -/
def Completion.status (c : Completion) : StatusWord :=
  match c with
  | .shape w h => packStatus (BitVec.ofNat 8 h) (BitVec.ofNat 8 w) 0 0 0 c.code
  | .transportError f => packStatus 0 0 (BitVec.ofNat 4 f.frame) f.step.code f.panel.code c.code
  | .ok => packStatus 0 0 0 0 0 c.code
  | .configError => packStatus 0 0 0 0 0 c.code
  | .illegalCommand => packStatus 0 0 0 0 0 c.code
  | .notInitialised => packStatus 0 0 0 0 0 c.code

/-- ERR_IO after a completion: the reported platform error on TRANSPORT_ERROR, none otherwise (R33). -/
def Completion.errIo : Completion → Option IOError
  | .transportError f => some f.error
  | .ok => none
  | .shape _ _ => none
  | .configError => none
  | .illegalCommand => none
  | .notInitialised => none

/-- STATUS.CODE = STATUS[3:0] (R31). -/
def statusCode (w : StatusWord) : BitVec 4 := w.extractLsb' 0 4
/-- STATUS.EPANEL = STATUS[4] (R31). -/
def statusEpanel (w : StatusWord) : BitVec 1 := w.extractLsb' 4 1
/-- STATUS.EPHASE = STATUS[6:5] (R31). -/
def statusEphase (w : StatusWord) : BitVec 2 := w.extractLsb' 5 2
/-- STATUS[7], reserved (R31). -/
def statusReserved7 (w : StatusWord) : BitVec 1 := w.extractLsb' 7 1
/-- STATUS.EFRAME = STATUS[11:8] (R31). -/
def statusEframe (w : StatusWord) : BitVec 4 := w.extractLsb' 8 4
/-- STATUS[15:12], reserved (R31). -/
def statusReserved15 (w : StatusWord) : BitVec 4 := w.extractLsb' 12 4
/-- STATUS.SHAPE_W = STATUS[23:16] (R31). -/
def statusShapeW (w : StatusWord) : BitVec 8 := w.extractLsb' 16 8
/-- STATUS.SHAPE_H = STATUS[31:24] (R31). -/
def statusShapeH (w : StatusWord) : BitVec 8 := w.extractLsb' 24 8

end Sys2Proof.Machine
end

