-- ==== Sys2Proof/Machine/Operands.lean ====
section
/-! DEFINITION. What the commands compute from their operands: shape, remap, the acceptance test, quantisation and the
brightness clamp (R110 to R113, R117, R174), and the ten wire frames (R87 to R89, R175, R177). -/

namespace Sys2Proof.Machine

/-- The logical footprint (width, height) under a rotation (R110). -/
def shape : Rotation → Nat × Nat
  | .deg0 => (17, 7)
  | .deg90 => (7, 17)
  | .deg180 => (17, 7)
  | .deg270 => (7, 17)

/-- The storage index of a coordinate under a rotation, in unbounded integers (R111). -/
def remap (rot : Rotation) (x y : Int) : Int :=
  match rot with
  | .deg0 => x * 7 + y
  | .deg90 => (16 - y) * 7 + x
  | .deg180 => (16 - x) * 7 + (6 - y)
  | .deg270 => y * 7 + (6 - x)

/-- Stage 1 of the acceptance test: the coordinates (R112). -/
def accept (dom : CoordDomain) (rot : Rotation) (x y : Int) : Bool :=
  match dom with
  | .shape => decide (0 ≤ x ∧ x < (shape rot).1 ∧ 0 ≤ y ∧ y < (shape rot).2)
  | .fixed => decide (0 ≤ x ∧ x < 17 ∧ 0 ≤ y ∧ y < 7)
  | .indexOnly => true

/-- Stage 2 of the acceptance test: the index (R112). -/
def inBounds (i : Int) : Bool := decide (0 ≤ i ∧ i < 119)

/-- The slot a SET_PIXEL writes, or none where the write is dropped (R112, R114). -/
def pixelSlot (dom : CoordDomain) (rot : Rotation) (x y : Int) : Option Nat :=
  if accept dom rot x y then
    if inBounds (remap rot x y) then some (remap rot x y).toNat else none
  else none

/-- Quantisation q(v) = v >> 2: the top six bits, truncated (R113). -/
def quantise (v : Byte) : Channel := (v >>> 2).setWidth 6

/-- The stored triple of an 8-bit colour (R113, R114). -/
def quantiseRgb (r g b : Byte) : Rgb := ⟨quantise r, quantise g, quantise b⟩

/-- The rotation of a degree operand, where it is one of the four legal ones (R24, R117). -/
def rotationOfDegrees (deg : Int) : Option Rotation :=
  if deg = 0 then some .deg0
  else if deg = 90 then some .deg90
  else if deg = 180 then some .deg180
  else if deg = 270 then some .deg270
  else none

/-- The 6-bit brightness code of an operand: min(BR, 63) (R174). -/
def clampBrightness (br : Byte) : Fin 64 := ⟨min br.toNat 63, by omega⟩

/-- SoftReset (R87). -/
def cmdSoftReset : Byte := 0xCC#8
/-- GlobalBrightness (R87). -/
def cmdGlobalBrightness : Byte := 0x37#8
/-- ComPinCtrl (R87). -/
def cmdComPinCtrl : Byte := 0x41#8
/-- RowPinCtrl (R87). -/
def cmdRowPinCtrl : Byte := 0x42#8
/-- WriteDisplay (R87). -/
def cmdWriteDisplay : Byte := 0x80#8
/-- ReadDisplay (R87): defined, never sent (R90). -/
def cmdReadDisplay : Byte := 0x81#8
/-- SystemCtrl (R87). -/
def cmdSystemCtrl : Byte := 0x35#8
/-- ScrollCtrl (R87). -/
def cmdScrollCtrl : Byte := 0x20#8

/-- FR_SOFT_RESET (R88). -/
def frSoftReset (P : Params) : List Byte := cmdSoftReset :: P.argsSoftReset
/-- FR_BRIGHT(c) (R88). -/
def frBright (P : Params) (c : Fin 64) : List Byte := cmdGlobalBrightness :: P.argsBright[c]
/-- FR_SCROLL_OFF (R88). -/
def frScrollOff (P : Params) : List Byte := cmdScrollCtrl :: P.argsScrollOff
/-- FR_SYS_OFF (R88). -/
def frSysOff (P : Params) : List Byte := cmdSystemCtrl :: P.argsSysOff
/-- FR_SYS_ON (R88). -/
def frSysOn (P : Params) : List Byte := cmdSystemCtrl :: P.argsSysOn
/-- FR_COM_ON (R88). -/
def frComOn (P : Params) : List Byte := cmdComPinCtrl :: P.argsComOn
/-- FR_COM_OFF (R88). -/
def frComOff (P : Params) : List Byte := cmdComPinCtrl :: P.argsComOff
/-- FR_ROW_ON (R88). -/
def frRowOn (P : Params) : List Byte := cmdRowPinCtrl :: P.argsRowOn
/-- FR_ROW_OFF (R88). -/
def frRowOff (P : Params) : List Byte := cmdRowPinCtrl :: P.argsRowOff
/-- FR_WD(P) (R88). -/
def frWriteDisplay (P : Params) (payload : List Byte) : List Byte := cmdWriteDisplay :: (P.wdPrefix ++ payload)

/-- INIT's eight frames for one panel, in EFRAME order (R175, R243). -/
def initFrames (P : Params) : List (List Byte) :=
  [frSoftReset P, frBright P 1, frScrollOff P, frSysOff P,
   frWriteDisplay P (List.replicate 224 0#8), frComOn P, frRowOn P, frSysOn P]

/-- SHUTDOWN's three frames for one panel, in EFRAME order (R177). -/
def shutdownFrames (P : Params) : List (List Byte) := [frComOff P, frRowOff P, frSysOff P]

/-- The SPI connection of a panel (R29). -/
def Params.conn (P : Params) : Panel → ConnId
  | .a => P.connA
  | .b => P.connB

/-- The chip-select pin of a panel (R29). -/
def Params.cs (P : Params) : Panel → PinId
  | .a => P.csA
  | .b => P.csB

/-- The offset of a panel's half: OFF_A = 0, OFF_B = 224 (R8, R27, R29). -/
def Panel.offset : Panel → Nat
  | .a => 0
  | .b => 224

/-- One frame of a command's frame sequence: the panel, its EFRAME number, its bytes, and whether the settle delay follows
it (R175, R177, R178). -/
structure Job where
  panel : Panel
  index : Nat
  bytes : List Byte
  settle : Bool
  deriving DecidableEq, Repr

/-- The frames of one panel numbered from 0, with the settle delay after frame 0 where the command has one (R175, R177). -/
def panelJobs (p : Panel) (settleAfterFirst : Bool) (frames : List (List Byte)) : List Job :=
  frames.zipIdx.map fun (bytes, k) => { panel := p, index := k, bytes := bytes, settle := settleAfterFirst && k == 0 }

/-- Panel A's whole sequence, then panel B's (R179). -/
def bothPanels (settleAfterFirst : Bool) (frames : List (List Byte)) : List Job :=
  panelJobs .a settleAfterFirst frames ++ panelJobs .b settleAfterFirst frames

end Sys2Proof.Machine
end

