-- ==== Sys2Proof/Machine/Ops.lean ====
section
/-! DEFINITION. The shared operations: the transfer buffer and the frame buffer (R11), the platform calls and the transfer
procedure (R12, R170), sequences of frames (R152, R176, R177), the repack (R150), and how every command begins and ends
(R13, R34, R210, R216). The block has no exception: `finish` takes its place (R13). -/

namespace Sys2Proof.Machine

/-- The byte of the transfer buffer at an offset; an unlisted offset holds its reset byte 0x00 (R26). -/
def Memory.read : Memory → Nat → Byte
  | [], _ => 0#8
  | (b, v) :: rest, a => if a = b then v else Memory.read rest a

/-- `TB[a] <- v` (R11), keeping the canonical form: writing 0x00 takes the entry out. -/
def Memory.write : Memory → Nat → Byte → Memory
  | [], a, v => if v = 0#8 then [] else [(a, v)]
  | (b, w) :: rest, a, v =>
    if a < b then (if v = 0#8 then (b, w) :: rest else (a, v) :: (b, w) :: rest)
    else if a = b then (if v = 0#8 then rest else (a, v) :: rest)
    else (b, w) :: Memory.write rest a v

/-- The canonical form: offsets strictly rising and below TB_SIZE, no entry equal to the byte an unlisted offset holds. -/
abbrev Memory.wf (m : Memory) : Prop :=
  m.Pairwise (fun c d => c.1 < d.1) ∧ ∀ c ∈ m, c.2 ≠ 0#8 ∧ c.1 < 448

/-- `TB[a .. a+n)`, in rising order of offset (R11). -/
def Memory.slice (m : Memory) (a n : Nat) : List Byte := (List.range n).map fun k => m.read (a + k)

/-- `FB[i]` (R11): a slot of the frame buffer; black outside its range, which no access reaches (R65). -/
def readSlot (fb : FrameBuffer) (i : Nat) : Rgb := fb[i]?.getD Rgb.black

/-- `FB[i] <- c` (R11): all three channels of one slot (R66). An index outside [0, 119) writes nothing (R112). -/
def writeSlot (fb : FrameBuffer) (i : Nat) (c : Rgb) : FrameBuffer := fb.setIfInBounds i c

/-- Every slot set to one colour (R115, R116). -/
def fillSlots (c : Rgb) : FrameBuffer := Vector.replicate 119 c

/-- The three writes of one slot's repack, red, green, then blue, each channel zero-extended to a byte (R150, R63). -/
def repackSlot (tb : Memory) (e : LutEntry) (c : Rgb) : Memory :=
  ((tb.write e.ro.val (c.r.setWidth 8)).write e.go.val (c.g.setWidth 8)).write e.bo.val (c.b.setWidth 8)

/-- The repack of listed slots, in the list's order (R150). -/
def repackSlots : List (LutEntry × Rgb) → Memory → Memory
  | [], tb => tb
  | (e, c) :: rest, tb => repackSlots rest (repackSlot tb e c)

/-- repack(): every slot's channels to its LUT offsets, in ascending slot order (R150). -/
def repack (lut : Lut) (fb : FrameBuffer) (tb : Memory) : Memory :=
  repackSlots (lut.toList.zip fb.toList) tb

/-- A panel's write-display payload `TB[off_p .. off_p+224)` (R151). -/
def panelPayload (tb : Memory) (p : Panel) : List Byte := tb.slice p.offset 224

/-- The platform's answer to the k-th call from now (k = 0 is the next): the script's where it has one, free beyond it
(R67, log 2). -/
def Platform.answer (pl : Platform) (k : Nat) : Answer :=
  match pl.script[k]? with
  | some a => a
  | none => Config.freeAnswer (pl.drawn + k)

/-- The platform after one answer has been drawn. -/
def Platform.advance (pl : Platform) : Platform := { script := pl.script.tail, drawn := pl.drawn + 1 }

/-- Part of a command's body: it has reached its end with a value, or a platform call of it is never answered (R221). -/
inductive Run (α : Type) where
  | done (value : α) (s : State)
  | hung (s : State)

/-- Sequencing (R14): what follows a call that never returns is not run (R221). -/
def Run.bind {α β : Type} (run : Run α) (next : α → State → Run β) : Run β :=
  match run with
  | .done value s => next value s
  | .hung s => .hung s

/-- The entry is appended to EV (R35). -/
def record (e : Event) (s : State) : State := { s with ev := s.ev ++ [e] }

/-- One blocking platform call: its answer is drawn, the call is recorded with it, and the block goes on with the error or
none, or waits for good (R12, R67, R221). -/
def platformCall (event : Answer → Event) (s : State) : Run (Option IOError) :=
  let answer := s.platform.answer 0
  let s' := record (event answer) { s with platform := s.platform.advance }
  match answer with
  | .ok => .done none s'
  | .err e => .done (some e) s'
  | .never => .hung s'

/-- `PinWrite(pin, level)` (R12). -/
def pinWrite (pin : PinId) (level : Level) (s : State) : Run (Option IOError) :=
  platformCall (.pinWrite pin level) s

/-- `SpiTransfer(conn, bytes)` (R12). -/
def spiTransfer (conn : ConnId) (bytes : List Byte) (s : State) : Run (Option IOError) :=
  platformCall (.spiTransfer conn bytes) s

/-- `Sleep(SETTLE_DELAY)`: it always returns, and leaves one event (R178, log 5). -/
def settle (s : State) : State := record (.sleep s.params.settleDelay) s

/-- Which failure of a transfer whose pin went low is reported: the SPI transfer's before the release's (R170, R171). -/
def transferError (spi release : Option IOError) : Option (XferStep × IOError) :=
  match spi, release with
  | some e, _ => some (.spi, e)
  | none, some e => some (.pinHigh, e)
  | none, none => none

/-- `xfer(p, frame)`: select, one transfer, release whatever the transfer's result; a failed select ends it (R170). -/
def xfer (p : Panel) (frame : List Byte) (s : State) : Run (Option (XferStep × IOError)) :=
  (pinWrite (s.params.cs p) .low s).bind fun select s1 =>
    match select with
    | some e => .done (some (.pinLow, e)) s1
    | none =>
      (spiTransfer (s.params.conn p) frame s1).bind fun spi s2 =>
        (pinWrite (s.params.cs p) .high s2).bind fun release s3 =>
          .done (transferError spi release) s3

/-- A sequence of frames with the first failure kept; where `abort` holds it ends at that failure, otherwise every frame is
sent. The settle delay follows the frames that have one (R152, R174, R176, R177). -/
def runJobs (abort : Bool) : List Job → Option Failure → State → Run (Option Failure)
  | [], first, s => .done first s
  | job :: rest, first, s =>
    (xfer job.panel job.bytes s).bind fun result s1 =>
      let s2 := if job.settle then settle s1 else s1
      match result with
      | none => runJobs abort rest first s2
      | some (step, e) =>
        let first' := first.or (some ⟨job.panel, step, job.index, e⟩)
        if abort then .done first' s1 else runJobs abort rest first' s2

/-- How a command whose frames are all sent or abandoned completes: OK, or its first failure (R211, R213, R214). -/
def Completion.ofFailure : Option Failure → Completion
  | none => .ok
  | some f => .transportError f

/-- `finish`: STATUS and ERR_IO are written whole and BUSY falls (R13, R32, R33, R34). -/
def finish (c : Completion) (s : State) : State :=
  { s with status := c.status, errIo := c.errIo, busy := false }

/-- The block accepts a command: BUSY rises (R34, R216). -/
def beginCommand (s : State) : State := { s with busy := true }

/-- The end of a command: `finish` with its body's completion; a body that hangs leaves BUSY at 1 and STATUS and ERR_IO as
they were (R32, R216, R221). -/
def Run.close : Run Completion → State
  | .done c s => finish c s
  | .hung s => s

/-- The three stages of a command: BUSY rises, the body runs, `finish` (R216). -/
def runCommand (body : State → Run Completion) (s : State) : Host.Outcome State Fault Refusal :=
  .next (body (beginCommand s)).close

/-- The PHASE check of SHOW, SET_BRIGHTNESS and SHUTDOWN, before any state change or event (R30, R214). -/
def whenReady (body : State → Run Completion) (s : State) : Run Completion :=
  match s.phase with
  | .ready => body s
  | .uninit => .done .notInitialised s

/-- The construction state INIT begins from: FB, TB and ROT at their reset values, PHASE = UNINIT (R176). -/
def construct (s : State) : State :=
  { s with fb := fillSlots Rgb.black, tb := [], rot := .deg0, phase := .uninit }

/-- A word that matches no row completes with ILLEGAL_COMMAND at once (R84). -/
def execIllegal (s : State) : Host.Outcome State Fault Refusal :=
  runCommand (fun s => .done .illegalCommand s) s

/-- The word the block accepts next and the state without it: none while BUSY = 1, and none where the host presents none
(R34, R246). -/
def nextCommand (s : State) : Option (CmdWord × State) :=
  if s.busy then none
  else
    match s.cmds with
    | [] => none
    | w :: rest => some (w, { s with cmds := rest })

/-- What the host reads of the block: STATUS and ERR_IO, and only while BUSY = 0 (R70). -/
def hostRead (s : State) : Option (StatusWord × Option IOError) :=
  if s.busy then none else some (s.status, s.errIo)

/-- The host presents a word: it waits behind the words it has presented before (R34, R246). -/
def present (w : CmdWord) (s : State) : State := { s with cmds := s.cmds ++ [w] }

end Sys2Proof.Machine
end

