-- ==== Sys2Proof/Machine/Panels.lean ====
section
/-! DEFINITION. The panel family: SET_BRIGHTNESS, INIT and SHUTDOWN (R174 to R179). -/

namespace Sys2Proof.Machine

/-- SET_BRIGHTNESS (R174): one brightness frame to each panel, under SHOW's failure policy. -/
def execSetBrightness (br : Byte) (s : State) : Host.Outcome State Fault Refusal :=
  runCommand
    (whenReady fun s =>
      (runJobs s.params.showShortCircuit (bothPanels false [frBright s.params (clampBrightness br)]) none s).bind
        fun first s1 => .done (.ofFailure first) s1)
    s

/-- INIT (R176): the construction state, panel A's sequence, panel B's; READY only where every frame succeeded. -/
def execInit (s : State) : Host.Outcome State Fault Refusal :=
  runCommand
    (fun s =>
      (runJobs s.params.seqAbort (bothPanels true (initFrames s.params)) none (construct s)).bind fun first s1 =>
        match first with
        | none => .done .ok { s1 with phase := .ready }
        | some f => .done (.transportError f) s1)
    s

/-- SHUTDOWN (R177): no state of the block is written. -/
def execShutdown (s : State) : Host.Outcome State Fault Refusal :=
  runCommand
    (whenReady fun s =>
      (runJobs s.params.seqAbort (bothPanels false (shutdownFrames s.params)) none s).bind fun first s1 =>
        .done (.ofFailure first) s1)
    s

end Sys2Proof.Machine
end

