-- ==== Sys2Proof/Machine/Pixel.lean ====
section
/-! DEFINITION. The remapper family: SET_PIXEL, SET_ALL, CLEAR, SET_ROTATION and GET_SHAPE (R114 to R118). None checks PHASE,
touches TB or calls the platform (R122). -/

namespace Sys2Proof.Machine

/-- SET_PIXEL (R114): the slot the coordinate maps to, or nothing where the write is dropped. -/
def execSetPixel (x y : Int) (r g b : Byte) (s : State) : Host.Outcome State Fault Refusal :=
  runCommand
    (fun s =>
      match pixelSlot s.params.coordDomain s.rot x y with
      | some i => .done .ok { s with fb := writeSlot s.fb i (quantiseRgb r g b) }
      | none => .done .ok s)
    s

/-- SET_ALL (R115). -/
def execSetAll (r g b : Byte) (s : State) : Host.Outcome State Fault Refusal :=
  runCommand (fun s => .done .ok { s with fb := fillSlots (quantiseRgb r g b) }) s

/-- CLEAR (R116). -/
def execClear (s : State) : Host.Outcome State Fault Refusal :=
  runCommand (fun s => .done .ok { s with fb := fillSlots Rgb.black }) s

/-- SET_ROTATION (R117). -/
def execSetRotation (deg : Int) (s : State) : Host.Outcome State Fault Refusal :=
  runCommand
    (fun s =>
      match rotationOfDegrees deg with
      | some rot => .done .ok { s with rot := rot }
      | none => .done .configError s)
    s

/-- GET_SHAPE (R118). -/
def execGetShape (s : State) : Host.Outcome State Fault Refusal :=
  runCommand (fun s => .done (.shape (shape s.rot).1 (shape s.rot).2) s) s

end Sys2Proof.Machine
end

