-- ==== Sys2Proof/Machine/Show.lean ====
section
/-! DEFINITION. The packer family: SHOW (R152). -/

namespace Sys2Proof.Machine

/-- SHOW's two frames after the repack: panel A's half, then panel B's, with EFRAME 0 (R151, R152, R213). -/
def showJobs (P : Params) (tb : Memory) : List Job :=
  panelJobs .a false [frWriteDisplay P (panelPayload tb .a)] ++
  panelJobs .b false [frWriteDisplay P (panelPayload tb .b)]

/-- SHOW (R152). -/
def execShow (s : State) : Host.Outcome State Fault Refusal :=
  runCommand
    (whenReady fun s =>
      let s1 := { s with tb := repack s.params.lut s.fb s.tb }
      (runJobs s1.params.showShortCircuit (showJobs s1.params s1.tb) none s1).bind fun first s2 =>
        .done (.ofFailure first) s2)
    s

end Sys2Proof.Machine
end

