-- ==== Sys2Proof/Machine/Dispatch.lean ====
section
/-! DEFINITION. The meaning of each command, one arm per constructor of Instr. -/

namespace Sys2Proof.Machine

def exec (i : Instr) (s : State) : Host.Outcome State Fault Refusal :=
  match i with
  | .setPixel x y r g b => Sys2Proof.Machine.execSetPixel x y r g b s
  | .setAll r g b => Sys2Proof.Machine.execSetAll r g b s
  | .clear => Sys2Proof.Machine.execClear s
  | .setRotation deg => Sys2Proof.Machine.execSetRotation deg s
  | .getShape => Sys2Proof.Machine.execGetShape s
  | .showPanels => Sys2Proof.Machine.execShow s
  | .setBrightness br => Sys2Proof.Machine.execSetBrightness br s
  | .init => Sys2Proof.Machine.execInit s
  | .shutdown => Sys2Proof.Machine.execShutdown s

end Sys2Proof.Machine
end

