-- ==== Sys2Proof/Machine/Step.lean ====
section
/-! DEFINITION. One step of the block: it accepts the next command word and carries the command out (R34, R216, log 1). -/

namespace Sys2Proof.Machine

/-- One step. While BUSY = 1, or where the host presents no word, nothing happens (R34, R221, R240); a word that decodes is
carried out, any other completes with ILLEGAL_COMMAND (R84). -/
def step (s : State) : Host.Outcome State Fault Refusal :=
  match nextCommand s with
  | none => .next s
  | some (w, s') =>
    match decode w with
    | .ok i => exec i s'
    | .error _ => execIllegal s'

/-- The word, numbered as the opcode table numbers it, presented as the next command the block accepts (log 6). -/
def State.withFetchWord (s : State) (nbits w : Nat) : State :=
  { s with busy := false, cmds := BitVec.ofNat cmdBits (w % 2 ^ nbits) :: s.cmds }

end Sys2Proof.Machine
end

