-- ==== Sys2Proof/Machine/Assembler.lean ====
section
/-! DEFINITION. The assembler of R86: one command a line, decimal or hexadecimal numerals, comments from `;`, the four
pseudo-instructions, and a refusal for a value outside its field. Text is a list of characters, so that it can be evaluated
without strings. The lexical points R86 leaves open are log 9. -/

namespace Sys2Proof.Machine

/-- Why the assembler refuses a line. -/
inductive AsmError where
  | unknownMnemonic
  | badNumeral
  | badOperands
  | outOfField
  deriving DecidableEq, Repr

/-- An operand of the text: a numeral, or a colour #RRGGBB (R86). -/
inductive Operand where
  | num (v : Int)
  | colour (r g b : Byte)
  deriving DecidableEq, Repr

/-- A space or a tab. -/
def isBlank (c : Char) : Bool := c.toNat == 32 || c.toNat == 9

/-- The value of a decimal digit. -/
def decDigit (c : Char) : Option Nat :=
  if 48 ≤ c.toNat ∧ c.toNat ≤ 57 then some (c.toNat - 48) else none

/-- The value of a hexadecimal digit, in either case (log 9). -/
def hexDigit (c : Char) : Option Nat :=
  if 48 ≤ c.toNat ∧ c.toNat ≤ 57 then some (c.toNat - 48)
  else if 97 ≤ c.toNat ∧ c.toNat ≤ 102 then some (c.toNat - 87)
  else if 65 ≤ c.toNat ∧ c.toNat ≤ 70 then some (c.toNat - 55)
  else none

/-- The value of a run of digits in a base, most significant first. -/
def digitsValue (digit : Char → Option Nat) (base : Nat) : List Char → Nat → Option Nat
  | [], acc => some acc
  | c :: rest, acc =>
    match digit c with
    | some d => digitsValue digit base rest (acc * base + d)
    | none => none

/-- A numeral: decimal with an optional `-`, or `0x` hexadecimal (R86). -/
def numeral : List Char → Option Int
  | [] => none
  | ['-'] => none
  | ['0', 'x'] => none
  | '0' :: 'x' :: ds => (digitsValue hexDigit 16 ds 0).map fun n => (n : Int)
  | '-' :: ds => (digitsValue decDigit 10 ds 0).map fun n => -(n : Int)
  | ds => (digitsValue decDigit 10 ds 0).map fun n => (n : Int)

/-- One byte of a colour from its two hexadecimal digits. -/
def hexByte (hi lo : Char) : Option Byte :=
  match hexDigit hi, hexDigit lo with
  | some h, some l => some (BitVec.ofNat 8 (h * 16 + l))
  | _, _ => none

/-- One operand: `#RRGGBB` or a numeral (R86). -/
def operand : List Char → Option Operand
  | ['#', r1, r0, g1, g0, b1, b0] =>
    match hexByte r1 r0, hexByte g1 g0, hexByte b1 b0 with
    | some r, some g, some b => some (.colour r g b)
    | _, _, _ => none
  | cs => (numeral cs).map .num

/-- The text without the blanks at its two ends. -/
def trimBlanks (cs : List Char) : List Char :=
  ((cs.dropWhile isBlank).reverse.dropWhile isBlank).reverse

/-- The pieces of a text between its commas, at least one. -/
def splitCommas : List Char → List (List Char)
  | [] => [[]]
  | c :: rest =>
    if c.toNat = 44 then [] :: splitCommas rest
    else
      match splitCommas rest with
      | [] => [[c]]
      | piece :: pieces => (c :: piece) :: pieces

/-- Every operand of a line, or none where one of them is no operand. -/
def operands : List (List Char) → Option (List Operand)
  | [] => some []
  | piece :: pieces =>
    match operand (trimBlanks piece), operands pieces with
    | some o, some os => some (o :: os)
    | _, _ => none

/-- A colour or brightness operand, in [0, 255] (R86). -/
def byteOperand (v : Int) : Option Byte :=
  if 0 ≤ v ∧ v ≤ 255 then some (BitVec.ofNat 8 v.toNat) else none

/-- SET_PIXEL from its operands, refused where one is outside its field (R86). -/
def asmSetPixel (x y r g b : Int) : Except AsmError Instr :=
  match byteOperand r, byteOperand g, byteOperand b with
  | some r, some g, some b =>
    if CoordFits x ∧ CoordFits y then .ok (.setPixel x y r g b) else .error .outOfField
  | _, _, _ => .error .outOfField

/-- SET_PIXEL from a coordinate and a colour (R86). -/
def asmSetPixelColour (x y : Int) (r g b : Byte) : Except AsmError Instr :=
  if CoordFits x ∧ CoordFits y then .ok (.setPixel x y r g b) else .error .outOfField

/-- SET_ALL from its operands, refused where one is outside its field (R86). -/
def asmSetAll (r g b : Int) : Except AsmError Instr :=
  match byteOperand r, byteOperand g, byteOperand b with
  | some r, some g, some b => .ok (.setAll r g b)
  | _, _, _ => .error .outOfField

/-- The mnemonics of R86, its pseudo-instructions among them. -/
inductive AsmName where
  | setpixel | setall | clear | setrot | getshape | showName | setbright | init | shutdown | unset | flush
  deriving DecidableEq, Repr

/-- The mnemonic a text spells, in lower case (R86, log 9). -/
def asmName (cs : List Char) : Option AsmName :=
  if cs = ['s', 'e', 't', 'p', 'i', 'x', 'e', 'l'] then some .setpixel
  else if cs = ['s', 'e', 't', 'a', 'l', 'l'] then some .setall
  else if cs = ['c', 'l', 'e', 'a', 'r'] then some .clear
  else if cs = ['s', 'e', 't', 'r', 'o', 't'] then some .setrot
  else if cs = ['g', 'e', 't', 's', 'h', 'a', 'p', 'e'] then some .getshape
  else if cs = ['s', 'h', 'o', 'w'] then some .showName
  else if cs = ['s', 'e', 't', 'b', 'r', 'i', 'g', 'h', 't'] then some .setbright
  else if cs = ['i', 'n', 'i', 't'] then some .init
  else if cs = ['s', 'h', 'u', 't', 'd', 'o', 'w', 'n'] then some .shutdown
  else if cs = ['u', 'n', 's', 'e', 't'] then some .unset
  else if cs = ['f', 'l', 'u', 's', 'h'] then some .flush
  else none

/-- The one command a mnemonic with its operands stands for; a pseudo-instruction expands to exactly one (R86). -/
def asmCommand (name : AsmName) (ops : List Operand) : Except AsmError Instr :=
  match name, ops with
  | .setpixel, [.num x, .num y, .num r, .num g, .num b] => asmSetPixel x y r g b
  | .setpixel, [.num x, .num y, .colour r g b] => asmSetPixelColour x y r g b
  | .setall, [.num r, .num g, .num b] => asmSetAll r g b
  | .setall, [.colour r g b] => .ok (.setAll r g b)
  | .clear, [] => .ok .clear
  | .setrot, [.num deg] => if DegFits deg then .ok (.setRotation deg) else .error .outOfField
  | .getshape, [] => .ok .getShape
  | .showName, [] => .ok .showPanels
  | .setbright, [.num v] =>
    match byteOperand v with
    | some br => .ok (.setBrightness br)
    | none => .error .outOfField
  | .init, [] => .ok .init
  | .shutdown, [] => .ok .shutdown
  | .unset, [.num x, .num y] => asmSetPixelColour x y 0#8 0#8 0#8
  | .flush, [] => .ok .showPanels
  | _, _ => .error .badOperands

/-- One line: no command where it is blank or a comment, else the command it spells (R86). -/
def assembleLine (line : List Char) : Except AsmError (Option Instr) :=
  let text := trimBlanks (line.takeWhile fun c => c.toNat != 59)
  if text = [] then .ok none
  else
    match asmName (text.takeWhile fun c => !isBlank c) with
    | none => .error .unknownMnemonic
    | some name =>
      let rest := trimBlanks (text.dropWhile fun c => !isBlank c)
      match (if rest = [] then some [] else operands (splitCommas rest)) with
      | none => .error .badNumeral
      | some ops =>
        match asmCommand name ops with
        | .ok i => .ok (some i)
        | .error e => .error e

/-- The words of a program, one command a line, every reserved bit zero (R86, R81). -/
def assemble : List (List Char) → Except AsmError (List CmdWord)
  | [] => .ok []
  | line :: rest =>
    match assembleLine line, assemble rest with
    | .ok none, .ok ws => .ok ws
    | .ok (some i), .ok ws => .ok (encode i :: ws)
    | .error e, _ => .error e
    | _, .error e => .error e

end Sys2Proof.Machine
end

