-- ==== Sys2Proof/Safety.lean ====
section
/-! DEFINITION. The terms claims are stated in: what the platform answers, the events of a sequence of frames, and what a
legal state of the block is. -/

namespace Sys2Proof.Machine

/-- The platform answers its next `n` calls with Ok. -/
abbrev Platform.AllOk (pl : Platform) (n : Nat) : Prop := ∀ k < n, pl.answer k = .ok

/-- The platform answers each of its next `n` calls, with Ok or an error. -/
abbrev Platform.AllAnswered (pl : Platform) (n : Nat) : Prop := ∀ k < n, pl.answer k ≠ .never

/-- The platform after `n` answers have been drawn. -/
def Platform.advanceBy (pl : Platform) (n : Nat) : Platform :=
  { script := pl.script.drop n, drawn := pl.drawn + n }

/-- The three events of a transfer whose calls are answered so (R170). -/
def xferEvents (P : Params) (p : Panel) (frame : List Byte) (select spi release : Answer) : List Event :=
  [.pinWrite (P.cs p) .low select, .spiTransfer (P.conn p) frame spi, .pinWrite (P.cs p) .high release]

/-- The events of a sequence of frames when every call is answered Ok (R152, R174, R176, R177). -/
def okEvents (P : Params) : List Job → List Event
  | [] => []
  | job :: rest =>
    xferEvents P job.panel job.bytes .ok .ok .ok ++ (if job.settle then [.sleep P.settleDelay] else []) ++ okEvents P rest

/-- How many calls a transfer makes whose first call is the n-th from now (R170, R221). -/
def Platform.callsAt (pl : Platform) (n : Nat) : Nat :=
  match pl.answer n, pl.answer (n + 1) with
  | .ok, .never => 2
  | .ok, _ => 3
  | _, _ => 1

/-- The events of a transfer whose first call is the n-th from now: a select that is not answered Ok ends it, and so does an
SPI transfer that is never answered (R170, R172, R221). -/
def Platform.eventsAt (pl : Platform) (P : Params) (p : Panel) (frame : List Byte) (n : Nat) : List Event :=
  (xferEvents P p frame (pl.answer n) (pl.answer (n + 1)) (pl.answer (n + 2))).take (pl.callsAt n)

/-- What a transfer reports whose first call is the n-th from now: its first failure; none where no call of it fails, or where
it never returns (R170, R171, R221). -/
def Platform.failureAt (pl : Platform) (n : Nat) : Option (XferStep × IOError) :=
  match pl.answer n, pl.answer (n + 1), pl.answer (n + 2) with
  | .err e, _, _ => some (.pinLow, e)
  | .ok, .err _, .never => none
  | .ok, .err e, _ => some (.spi, e)
  | .ok, .ok, .err e => some (.pinHigh, e)
  | _, _, _ => none

/-- The events of a sequence of frames each of which is attempted, the first call being the n-th from now (R152, R176, R177). -/
def sequenceEvents (P : Params) (pl : Platform) : List Job → Nat → List Event
  | [], _ => []
  | job :: rest, n =>
    pl.eventsAt P job.panel job.bytes n ++ (if job.settle then [.sleep P.settleDelay] else []) ++
      sequenceEvents P pl rest (n + pl.callsAt n)

/-- The first failure of a sequence of frames, with the panel and the number of its frame, the first call being the n-th from
now (R213, R214). -/
def sequenceFailure (pl : Platform) : List Job → Nat → Option Failure
  | [], _ => none
  | job :: rest, n =>
    match pl.failureAt n with
    | some (xferStep, e) => some ⟨job.panel, xferStep, job.index, e⟩
    | none => sequenceFailure pl rest (n + pl.callsAt n)

/-- The frames a command has to send from a state, numbered; none for a pixel command, and none for a command that needs INIT
first (R30, R152, R174, R175, R177). -/
def commandJobs (i : Instr) (s : State) : List Job :=
  match i, s.phase with
  | .init, _ => bothPanels true (initFrames s.params)
  | .showPanels, .ready => showJobs s.params (repack s.params.lut s.fb s.tb)
  | .setBrightness br, .ready => bothPanels false [frBright s.params (clampBrightness br)]
  | .shutdown, .ready => bothPanels false (shutdownFrames s.params)
  | _, _ => []

/-- The step and the error of an event whose call failed (R213, R214). -/
def Event.failed : Event → Option (XferStep × IOError)
  | .pinWrite _ .low (.err e) => some (.pinLow, e)
  | .pinWrite _ .high (.err e) => some (.pinHigh, e)
  | .spiTransfer _ _ (.err e) => some (.spi, e)
  | _ => none

/-- The event is a call the platform never answers (R221, log 8). -/
def Event.unanswered : Event → Bool
  | .pinWrite _ _ .never => true
  | .spiTransfer _ _ .never => true
  | _ => false

/-- The first failure of a trace, in event order (R214). -/
def firstFailed (evs : List Event) : Option (XferStep × IOError) := evs.findSome? Event.failed

/-- The pin an event selects, where it begins a transfer by driving that pin low (R170). -/
def Event.selectedPin : Event → Option PinId
  | .pinWrite pin .low _ => some pin
  | _ => none

/-- The event acts on one panel: on its pin or its connection, or it is a Sleep (R179). -/
def Event.onPanel (P : Params) (p : Panel) : Event → Prop
  | .pinWrite pin _ _ => pin = P.cs p
  | .spiTransfer conn _ _ => conn = P.conn p
  | .sleep d => d = P.settleDelay

/-- The ten forms of a frame (R88). -/
def FrameForm (P : Params) (bytes : List Byte) : Prop :=
  bytes = frSoftReset P ∨ (∃ c : Fin 64, bytes = frBright P c) ∨ bytes = frScrollOff P ∨
  bytes = frSysOff P ∨ bytes = frSysOn P ∨ bytes = frComOn P ∨ bytes = frComOff P ∨
  bytes = frRowOn P ∨ bytes = frRowOff P ∨
  (∃ payload : List Byte, payload.length = 224 ∧ bytes = frWriteDisplay P payload)

/-- The frame an event sends is one of the ten forms; other events send none (R88, R90). -/
def Event.legalFrame (P : Params) : Event → Prop
  | .spiTransfer _ bytes _ => FrameForm P bytes
  | .pinWrite _ _ _ => True
  | .sleep _ => True

/-- Where a trace stands in the chip-select framing of R172 and R245. -/
inductive Framing where
  /-- No transfer is under way. -/
  | idle
  /-- A pin has been driven low with Ok. -/
  | selected (pin : PinId)
  /-- The transfer under that pin has been sent. -/
  | sent (pin : PinId)
  /-- A call is never answered. -/
  | waiting
  /-- The framing has been broken. -/
  | broken
  deriving DecidableEq, Repr

/-- The framing after one more event: low, one transfer on that pin's own connection, high on the same pin; a failed low
ends the transfer; a Sleep stands between transfers (R170, R172, R178, R245). -/
def Framing.next (P : Params) : Framing → Event → Framing
  | .idle, .pinWrite pin .low .ok => .selected pin
  | .idle, .pinWrite _ .low (.err _) => .idle
  | .idle, .pinWrite _ .low .never => .waiting
  | .idle, .sleep _ => .idle
  | .selected pin, .spiTransfer conn _ result =>
    if (P.csA = pin ∧ P.connA = conn) ∨ (P.csB = pin ∧ P.connB = conn) then
      (if result = .never then .waiting else .sent pin)
    else .broken
  | .sent pin, .pinWrite pin' .high result =>
    if pin' = pin then (if result = .never then .waiting else .idle) else .broken
  | _, _ => .broken

/-- The framing of a whole trace. -/
def framing (P : Params) (evs : List Event) : Framing := evs.foldl (Framing.next P) .idle

/-- A legal STATUS word: reserved bits 0, CODE at most 4, EPHASE not 3, EFRAME at most 7, the error fields 0 unless CODE is
TRANSPORT_ERROR, the shape fields 0 or one of the two shapes, and 0 unless CODE is OK (R31, R118). -/
def LegalStatus (w : StatusWord) : Prop :=
  statusReserved7 w = 0 ∧ statusReserved15 w = 0 ∧ (statusCode w).toNat ≤ 4 ∧ statusEphase w ≠ 3 ∧
  (statusEframe w).toNat ≤ 7 ∧
  (statusCode w ≠ 2 → statusEpanel w = 0 ∧ statusEphase w = 0 ∧ statusEframe w = 0) ∧
  (statusShapeW w = 0 ∧ statusShapeH w = 0 ∨
    statusCode w = 0 ∧ (statusShapeW w = 17 ∧ statusShapeH w = 7 ∨ statusShapeW w = 7 ∧ statusShapeH w = 17))

/-- A legal transfer buffer: canonical, every byte in [0, 63], and 0x00 at every offset in no LUT entry (R62, R63). -/
def LegalTb (P : Params) (tb : Memory) : Prop :=
  tb.wf ∧ (∀ a, (tb.read a).toNat ≤ 63) ∧ ∀ a, a ∉ P.lut.offsets → tb.read a = 0#8

/-- A legal state: parameters as R28 and R91 ask, a legal transfer buffer (R62, R63), a legal STATUS (R31), ERR_IO held
exactly on TRANSPORT_ERROR (R33), every frame of EV one of the ten forms (R88), EV well framed, and between commands no
transfer under way (R172, R245). -/
structure LegalState (s : State) : Prop where
  params : s.params.wf
  tb : LegalTb s.params s.tb
  status : LegalStatus s.status
  errIo : s.errIo.isSome = true ↔ statusCode s.status = 2
  frames : ∀ e ∈ s.ev, e.legalFrame s.params
  framed : framing s.params s.ev ≠ .broken
  betweenCommands : s.busy = false → framing s.params s.ev = .idle

end Sys2Proof.Machine

namespace Sys2Proof

/-- The five commands that make no platform call (R122, R251). -/
def Instr.isPixel : Instr → Bool
  | .setPixel _ _ _ _ _ => true
  | .setAll _ _ _ => true
  | .clear => true
  | .setRotation _ => true
  | .getShape => true
  | .showPanels => false
  | .setBrightness _ => false
  | .init => false
  | .shutdown => false

end Sys2Proof
end

