-- ==== Sys2Proof/Certificates/Slice0/Obligations.lean ====
section
/-! DEFINITION. The statements for the provers, each a named Prop. -/

open Sys2Proof Sys2Proof.Machine

/-! ### The command word (R80 to R85) -/

/-- Words of spec/95_test_vectors.md (table E) decode to the commands they stand for, and three words that differ from a
legal one in a reserved bit or in OP are refused. -/
def Obligations.WrittenWordsDecode : Prop :=
  decode 0x01FF000000FC0000#64 = .ok (.setPixel (-1) 0 252 0 0) ∧
  decode 0x011006000000FF00#64 = .ok (.setPixel 16 6 0 255 0) ∧
  decode 0x020000000004080C#64 = .ok (.setAll 4 8 12) ∧
  decode 0x0300000000000000#64 = .ok .clear ∧
  decode 0x040000000000010E#64 = .ok (.setRotation 270) ∧
  decode 0x04000000FFFFFFA6#64 = .ok (.setRotation (-90)) ∧
  decode 0x0500000000000000#64 = .ok .getShape ∧
  decode 0x0600000000000000#64 = .ok .showPanels ∧
  decode 0x07000000000000C8#64 = .ok (.setBrightness 200) ∧
  decode 0x0800000000000000#64 = .ok .init ∧
  decode 0x0900000000000000#64 = .ok .shutdown ∧
  decode 0x0100000100000000#64 = .error .reservedBitSet ∧
  decode 0x0300000000000001#64 = .error .reservedBitSet ∧
  decode 0x0A00000000000000#64 = .error .unassignedOpcode

/-- Every well-formed command's word decodes to that command, each operand at every value its field admits (R81 to R83). -/
def Obligations.DecodeOfEncode : Prop :=
  ∀ i : Instr, i.wellFormed = true → decode (encode i) = .ok i

/-- A word that decodes to a command is that command's one word, and the command is well formed: no bit of a legal word is
dropped (R81 to R83). -/
def Obligations.EncodeOfDecode : Prop :=
  ∀ (w : CmdWord) (i : Instr), decode w = .ok i → i.wellFormed = true ∧ encode i = w

/-- At most one row of the opcode map matches a word (R83). -/
def Obligations.AtMostOneRowMatches : Prop :=
  ∀ (w : CmdWord) (row row' : Row), row.selects w = true → row'.selects w = true → row = row'

/-- A word with OP 0x00, OP 0x0A to 0xFF, or a legal OP and a reserved bit set, completes with ILLEGAL_COMMAND at once, in
either phase: STATUS is 3, ERR_IO is none, and nothing else of the block changes (R84). -/
def Obligations.IllegalWordCompletes : Prop :=
  ∀ (s : State) (w : CmdWord) (rest : List CmdWord), s.busy = false → s.cmds = w :: rest →
    (opField w = 0x00#8 ∨ 0x0A ≤ (opField w).toNat ∨
      ∃ row : Row, opField w = row.opcode ∧ w &&& row.mask ≠ row.pattern) →
    step s = .next { s with cmds := rest, status := 3#32, errIo := none }

/-! ### The step and the host's handshake (R34, R70, R216, R246) -/

/-- A step runs the decoded command: where BUSY = 0 and the host's next word is the word of a well-formed command, the step
is that command's meaning at the state without the word (R34, R216). -/
def Obligations.StepRunsDecodedCommand : Prop :=
  ∀ (s : State) (w : CmdWord) (rest : List CmdWord) (i : Instr), s.busy = false → s.cmds = w :: rest →
    decode w = .ok i → step s = exec i { s with cmds := rest }

/-- While BUSY = 1 no word is accepted, whatever the host presents: it stays with the host, and the host reads nothing (R34,
R246, R70). That a step changes nothing at all then is the model's choice (log 1, log 6): between steps BUSY = 1 only where a
platform call is never answered (R221). -/
def Obligations.BusyAcceptsNothing : Prop :=
  ∀ (s : State) (w : CmdWord), s.busy = true →
    step (present w s) = .next (present w s) ∧ hostRead (present w s) = none

/-- Where the host presents no word, the block waits unchanged (R240; that a step may answer the same state is the
model's choice, log 6). -/
def Obligations.IdleStepWaits : Prop :=
  ∀ s : State, s.cmds = [] → step s = .next s

/-- Every step ends in a next state: the block has no fault and no refusal (R210, R222). -/
def Obligations.EveryStepHasNextState : Prop :=
  ∀ s : State, ∃ t, step s = .next t

/-! ### The remapper (R110 to R122) -/

/-- The footprint is (7, 17) at 90 and 270 degrees and (17, 7) at 0 and 180 degrees (R110). -/
def Obligations.ShapeTransposes : Prop :=
  ∀ rot : Rotation, shape rot = if rot = .deg90 ∨ rot = .deg270 then (7, 17) else (17, 7)

/-- Under SHAPE and any rotation, the accepted coordinates map one-to-one onto the slots: each is in bounds, no two share a
slot, and every slot is reached. Under FIXED at 90 and 270 degrees the accepted coordinates reach only 49 slots, and under
INDEX_ONLY a coordinate outside the footprint writes the slot of one inside it (R119). -/
def Obligations.RemapIsBijection : Prop :=
  ∀ rot : Rotation,
    (∀ x y : Int, accept .shape rot x y = true → inBounds (remap rot x y) = true) ∧
    (∀ x y x' y' : Int, accept .shape rot x y = true → accept .shape rot x' y' = true →
      remap rot x y = remap rot x' y' → x = x' ∧ y = y') ∧
    (∀ i : Int, inBounds i = true → ∃ x y, accept .shape rot x y = true ∧ remap rot x y = i) ∧
    (rot = .deg90 ∨ rot = .deg270 →
      (((List.range 17).flatMap fun (x : Nat) => (List.range 7).filterMap fun (y : Nat) =>
        pixelSlot .fixed rot x y).eraseDups.length
        = 49)) ∧
    (∃ x y x' y' : Int, accept .shape rot x y = false ∧ accept .shape rot x' y' = true ∧
      pixelSlot .indexOnly rot x y = pixelSlot .indexOnly rot x' y')

/-- The coordinate R120 gives for a slot is accepted under SHAPE and writes that slot (R120). -/
def Obligations.InverseMapsReachTheirSlot : Prop :=
  ∀ a c : Int, 0 ≤ a → a < 17 → 0 ≤ c → c < 7 →
    (accept .shape .deg0 a c = true ∧ remap .deg0 a c = a * 7 + c) ∧
    (accept .shape .deg90 c (16 - a) = true ∧ remap .deg90 c (16 - a) = a * 7 + c) ∧
    (accept .shape .deg180 (16 - a) (6 - c) = true ∧ remap .deg180 (16 - a) (6 - c) = a * 7 + c) ∧
    (accept .shape .deg270 (6 - c) a = true ∧ remap .deg270 (6 - c) a = a * 7 + c)

/-- Every index of a presentable coordinate lies in [-1024, 1142] (R121). -/
def Obligations.RemapRange : Prop :=
  ∀ (rot : Rotation) (x y : Int), -128 ≤ x → x ≤ 127 → -128 ≤ y → y ≤ 127 →
    -1024 ≤ remap rot x y ∧ remap rot x y ≤ 1142

/-- Quantisation truncates to the top six bits: the stored number is v >> 2, v div 4 (R113). -/
def Obligations.QuantisationTruncates : Prop :=
  ∀ v : Byte, (quantise v).toNat = v.toNat / 4 ∧ quantise v = v.extractLsb' 2 6

/-- SET_PIXEL completes with OK in every state. Where the coordinate is accepted and its index is in bounds it writes that
slot's three quantised channels, otherwise it writes nothing; no other field changes (R114, with R112 and R113). -/
def Obligations.SetPixelCompletes : Prop :=
  ∀ (s : State) (x y : Int) (r g b : Byte),
    (accept s.params.coordDomain s.rot x y = true → inBounds (remap s.rot x y) = true →
      exec (.setPixel x y r g b) s =
        .next { s with
          fb := writeSlot s.fb (remap s.rot x y).toNat ⟨quantise r, quantise g, quantise b⟩
          status := 0#32, errIo := none, busy := false }) ∧
    (¬ (accept s.params.coordDomain s.rot x y = true ∧ inBounds (remap s.rot x y) = true) →
      exec (.setPixel x y r g b) s = .next { s with status := 0#32, errIo := none, busy := false })

/-- After a SET_PIXEL that is accepted under SHAPE, reading the predicted slot gives (r>>2, g>>2, b>>2) and every other slot
reads as before (R114, R119; spec/95_test_vectors.md S1). -/
def Obligations.SetPixelReadsBack : Prop :=
  ∀ (s t : State) (x y : Int) (r g b : Byte), s.params.coordDomain = .shape → accept .shape s.rot x y = true →
    exec (.setPixel x y r g b) s = .next t →
    readSlot t.fb (remap s.rot x y).toNat = ⟨quantise r, quantise g, quantise b⟩ ∧
    ∀ j, j ≠ (remap s.rot x y).toNat → readSlot t.fb j = readSlot s.fb j

/-- Frame of SET_PIXEL under every COORD_DOMAIN: the slot that pixelSlot gives, where it gives one, lies in the buffer and takes
the quantised colour; every other slot reads as before (R112, R114). -/
def Obligations.SetPixelWritesAtMostOneSlot : Prop :=
  ∀ (s t : State) (x y : Int) (r g b : Byte), exec (.setPixel x y r g b) s = .next t →
    (∀ j, pixelSlot s.params.coordDomain s.rot x y = some j →
      j < 119 ∧ readSlot t.fb j = ⟨quantise r, quantise g, quantise b⟩) ∧
    ∀ j, pixelSlot s.params.coordDomain s.rot x y ≠ some j → readSlot t.fb j = readSlot s.fb j

/-- SET_ALL completes with OK in every state and sets every one of the 119 slots to the quantised colour; no other field
changes (R115). -/
def Obligations.SetAllFillsEverySlot : Prop :=
  ∀ (s : State) (r g b : Byte), ∃ t,
    exec (.setAll r g b) s = .next t ∧
    (∀ i, i < 119 → readSlot t.fb i = ⟨quantise r, quantise g, quantise b⟩) ∧
    t = { s with fb := t.fb, status := 0#32, errIo := none, busy := false }

/-- CLEAR completes with OK in every state, sets every slot to (0, 0, 0), and has the effect of SET_ALL(0, 0, 0) (R116). -/
def Obligations.ClearIsSetAllBlack : Prop :=
  ∀ s : State,
    exec .clear s = exec (.setAll 0 0 0) s ∧
    ∃ t, exec .clear s = .next t ∧ (∀ i, i < 119 → readSlot t.fb i = ⟨0, 0, 0⟩) ∧
      t = { s with fb := t.fb, status := 0#32, errIo := none, busy := false }

/-- SET_ROTATION with 0, 90, 180 or 270 sets ROT and completes with OK; with any other operand it completes with
CONFIG_ERROR and ROT is unchanged, no value being reduced modulo 360. No other field changes (R117). -/
def Obligations.SetRotationCompletes : Prop :=
  ∀ s : State,
    exec (.setRotation 0) s = .next { s with rot := .deg0, status := 0#32, errIo := none, busy := false } ∧
    exec (.setRotation 90) s = .next { s with rot := .deg90, status := 0#32, errIo := none, busy := false } ∧
    exec (.setRotation 180) s = .next { s with rot := .deg180, status := 0#32, errIo := none, busy := false } ∧
    exec (.setRotation 270) s = .next { s with rot := .deg270, status := 0#32, errIo := none, busy := false } ∧
    ∀ deg : Int, deg ≠ 0 → deg ≠ 90 → deg ≠ 180 → deg ≠ 270 →
      exec (.setRotation deg) s = .next { s with status := 1#32, errIo := none, busy := false }

/-- GET_SHAPE completes with OK and the footprint in STATUS[31:16]: 0x07110000 at 0 and 180 degrees, 0x11070000 at 90 and 270
degrees; nothing else changes (R118, R110). -/
def Obligations.GetShapeReports : Prop :=
  ∀ s : State,
    exec .getShape s =
      .next { s with
        status := if s.rot = .deg90 ∨ s.rot = .deg270 then 0x11070000#32 else 0x07110000#32
        errIo := none, busy := false }

/-- The five pixel commands always complete: in every state BUSY falls, no platform call is made, and EV, TB, PHASE, the
parameters, the host's words and the platform are unchanged (R122, R251). -/
def Obligations.PixelCommandsCompleteWithoutIo : Prop :=
  ∀ (i : Instr) (s : State), i.isPixel = true → ∃ t, exec i s = .next t ∧ t.busy = false ∧
    t.ev = s.ev ∧ t.platform = s.platform ∧ t.tb = s.tb ∧ t.phase = s.phase ∧ t.params = s.params ∧ t.cmds = s.cmds

/-! ### The packer (R150 to R155) -/

/-- SHOW in READY with every call answered Ok: TB is repacked, the six events of R152 are appended, panel A's before panel
B's, and it completes with OK; no other field of the block changes (R152, R151). -/
def Obligations.ShowCompletes : Prop :=
  ∀ s : State, s.phase = .ready → s.platform.AllOk 6 →
    exec .showPanels s =
      .next { s with
        tb := repack s.params.lut s.fb s.tb
        ev := s.ev ++
          [.pinWrite s.params.csA .low .ok,
           .spiTransfer s.params.connA
             (0x80#8 :: (s.params.wdPrefix ++ (repack s.params.lut s.fb s.tb).slice 0 224)) .ok,
           .pinWrite s.params.csA .high .ok,
           .pinWrite s.params.csB .low .ok,
           .spiTransfer s.params.connB
             (0x80#8 :: (s.params.wdPrefix ++ (repack s.params.lut s.fb s.tb).slice 224 224)) .ok,
           .pinWrite s.params.csB .high .ok]
        platform := s.platform.advanceBy 6
        status := 0#32, errIo := none, busy := false }

/-- Content of TB after a SHOW in READY, whether its transfers succeed or fail: each slot's channels stand zero-extended at
its three LUT offsets, every offset in no LUT entry holds 0, and byte k of a panel's payload is TB's byte at off_p + k (R154; the
states are those that meet the invariant LegalState, R28 and R62 among it). -/
def Obligations.ShowRepacksTheFrameBuffer : Prop :=
  ∀ s t : State, LegalState s → s.phase = .ready → exec .showPanels s = .next t →
    (∀ i : Fin 119,
      t.tb.read s.params.lut[i].ro = s.fb[i].r.setWidth 8 ∧
      t.tb.read s.params.lut[i].go = s.fb[i].g.setWidth 8 ∧
      t.tb.read s.params.lut[i].bo = s.fb[i].b.setWidth 8) ∧
    (∀ a, a ∉ s.params.lut.offsets → t.tb.read a = 0#8) ∧
    ∀ (p : Panel) (k : Nat), k < 224 → (panelPayload t.tb p)[k]? = some (t.tb.read (p.offset + k))

/-- SHOW is idempotent: a second SHOW from a state with the same FB leaves TB byte-identical, and where the platform answers
the two alike it appends the same events (R153). -/
def Obligations.ShowIsIdempotent : Prop :=
  ∀ s t u v : State, LegalState s → s.phase = .ready → exec .showPanels s = .next t →
    u.params = s.params → u.fb = s.fb → u.tb = t.tb → u.phase = .ready → exec .showPanels u = .next v →
    v.tb = t.tb ∧
    ((∀ k, k < 6 → u.platform.answer k = s.platform.answer k) →
      ∃ evs, t.ev = s.ev ++ evs ∧ v.ev = u.ev ++ evs)

/-- SHOW_SHORT_CIRCUIT decides what follows a failure of panel A's transfer in SHOW and SET_BRIGHTNESS, in whichever step it
fails: the select, the SPI transfer or the release. With false, panel B's transfer follows with panel B's frame; with true,
nothing is sent to panel B. Either way panel A's failure is the one reported, where the command completes (R152, R174, D11). -/
def Obligations.ShortCircuitDecidesPanelB : Prop :=
  ∀ (i : Instr) (s t : State) (frame : Panel → List Byte) (xferStep : XferStep) (e : IOError),
    i = .showPanels ∧
        frame = (fun p => frWriteDisplay s.params (panelPayload (repack s.params.lut s.fb s.tb) p)) ∨
      (∃ br, i = .setBrightness br ∧ frame = fun _ => frBright s.params (clampBrightness br)) →
    s.phase = .ready → s.platform.failureAt 0 = some (xferStep, e) → exec i s = .next t →
    (s.params.showShortCircuit = true →
      t.ev = s.ev ++ s.platform.eventsAt s.params .a (frame .a) 0 ∧
      t.status = BitVec.ofNat 32 (2 + 32 * xferStep.code.toNat) ∧ t.errIo = some e ∧ t.busy = false) ∧
    (s.params.showShortCircuit = false →
      t.ev = s.ev ++ s.platform.eventsAt s.params .a (frame .a) 0 ++
        s.platform.eventsAt s.params .b (frame .b) (s.platform.callsAt 0) ∧
      (t.busy = false → t.status = BitVec.ofNat 32 (2 + 32 * xferStep.code.toNat) ∧ t.errIo = some e))

/-! ### The panel family (R170 to R179) -/

/-- SET_BRIGHTNESS in READY with every call answered Ok: the frame 0x37 with ARGS_BRIGHT of the code min(BR, 63) to panel A,
then to panel B, and OK; no other field of the block changes. Under the default ARGS_BRIGHT that frame is [0x37, min(BR, 63)]
(R174, R88, R9). -/
def Obligations.SetBrightnessCompletes : Prop :=
  ∀ (s : State) (br : Byte), s.phase = .ready → s.platform.AllOk 6 →
    exec (.setBrightness br) s =
      .next { s with
        ev := s.ev ++
          [.pinWrite s.params.csA .low .ok,
           .spiTransfer s.params.connA (0x37#8 :: s.params.argsBright[min br.toNat 63]) .ok,
           .pinWrite s.params.csA .high .ok,
           .pinWrite s.params.csB .low .ok,
           .spiTransfer s.params.connB (0x37#8 :: s.params.argsBright[min br.toNat 63]) .ok,
           .pinWrite s.params.csB .high .ok]
        platform := s.platform.advanceBy 6
        status := 0#32, errIo := none, busy := false } ∧
    (s.params.argsBright = defaultArgsBright →
      0x37#8 :: s.params.argsBright[min br.toNat 63] = [0x37#8, BitVec.ofNat 8 (min br.toNat 63)])

/-- INIT in either phase with every call answered Ok: FB, TB and ROT take their reset values, PHASE is READY, and the eight
frames of R175 are sent in order, with one Sleep after the first, to panel A and then to panel B, 50 events in all; it
completes with OK and no other field changes. Under the default ARGS_BRIGHT the brightness frame is [0x37, 0x01]. That each
Sleep returns is R178 and D21 (log 5) (R176, R175, R178, R243). -/
def Obligations.InitCompletes : Prop :=
  ∀ s : State, s.platform.AllOk 48 →
    ∃ evsA evsB : List Event,
      exec .init s =
        .next { s with
          fb := Vector.replicate 119 ⟨0, 0, 0⟩, tb := [], rot := .deg0, phase := .ready
          ev := s.ev ++ evsA ++ evsB
          platform := s.platform.advanceBy 48
          status := 0#32, errIo := none, busy := false } ∧
      evsA =
        xferEvents s.params .a (0xCC#8 :: s.params.argsSoftReset) .ok .ok .ok ++
        .sleep s.params.settleDelay :: (xferEvents s.params .a (0x37#8 :: s.params.argsBright[1]) .ok .ok .ok ++
        xferEvents s.params .a (0x20#8 :: s.params.argsScrollOff) .ok .ok .ok ++
        xferEvents s.params .a (0x35#8 :: s.params.argsSysOff) .ok .ok .ok ++
        xferEvents s.params .a (0x80#8 :: (s.params.wdPrefix ++ List.replicate 224 0x00#8)) .ok .ok .ok ++
        xferEvents s.params .a (0x41#8 :: s.params.argsComOn) .ok .ok .ok ++
        xferEvents s.params .a (0x42#8 :: s.params.argsRowOn) .ok .ok .ok ++
        xferEvents s.params .a (0x35#8 :: s.params.argsSysOn) .ok .ok .ok) ∧
      evsB =
        xferEvents s.params .b (0xCC#8 :: s.params.argsSoftReset) .ok .ok .ok ++
        .sleep s.params.settleDelay :: (xferEvents s.params .b (0x37#8 :: s.params.argsBright[1]) .ok .ok .ok ++
        xferEvents s.params .b (0x20#8 :: s.params.argsScrollOff) .ok .ok .ok ++
        xferEvents s.params .b (0x35#8 :: s.params.argsSysOff) .ok .ok .ok ++
        xferEvents s.params .b (0x80#8 :: (s.params.wdPrefix ++ List.replicate 224 0x00#8)) .ok .ok .ok ++
        xferEvents s.params .b (0x41#8 :: s.params.argsComOn) .ok .ok .ok ++
        xferEvents s.params .b (0x42#8 :: s.params.argsRowOn) .ok .ok .ok ++
        xferEvents s.params .b (0x35#8 :: s.params.argsSysOn) .ok .ok .ok) ∧
      evsA.length + evsB.length = 50 ∧
      (s.params.argsBright = defaultArgsBright → 0x37#8 :: s.params.argsBright[1] = [0x37#8, 0x01#8])

/-- SHUTDOWN in READY with every call answered Ok: the three frames of R177 to panel A, then to panel B, 18 events, and OK;
no other field changes, PHASE stays READY (R177). -/
def Obligations.ShutdownCompletes : Prop :=
  ∀ s : State, s.phase = .ready → s.platform.AllOk 18 →
    exec .shutdown s =
      .next { s with
        ev := s.ev ++
          (xferEvents s.params .a (0x41#8 :: s.params.argsComOff) .ok .ok .ok ++
           xferEvents s.params .a (0x42#8 :: s.params.argsRowOff) .ok .ok .ok ++
           xferEvents s.params .a (0x35#8 :: s.params.argsSysOff) .ok .ok .ok ++
           xferEvents s.params .b (0x41#8 :: s.params.argsComOff) .ok .ok .ok ++
           xferEvents s.params .b (0x42#8 :: s.params.argsRowOff) .ok .ok .ok ++
           xferEvents s.params .b (0x35#8 :: s.params.argsSysOff) .ok .ok .ok)
        platform := s.platform.advanceBy 18
        status := 0#32, errIo := none, busy := false }

/-- SHOW, SET_BRIGHTNESS and SHUTDOWN in UNINIT complete with NOT_INITIALISED: STATUS is 4, and nothing else but ERR_IO and
BUSY changes; no event, no repack (R30, R211, R217). -/
def Obligations.PanelCommandsNeedInit : Prop :=
  ∀ (s : State) (br : Byte), s.phase = .uninit →
    exec .showPanels s = .next { s with status := 4#32, errIo := none, busy := false } ∧
    exec (.setBrightness br) s = .next { s with status := 4#32, errIo := none, busy := false } ∧
    exec .shutdown s = .next { s with status := 4#32, errIo := none, busy := false }

/-- INIT leaves PHASE = READY exactly where it completes with CODE = OK; a failed or a hung INIT leaves UNINIT (R30, R176). -/
def Obligations.InitReadyExactlyOnOk : Prop :=
  ∀ s t : State, exec .init s = .next t →
    (t.phase = .ready ↔ t.busy = false ∧ statusCode t.status = 0)

/-- What INIT does before its frames stands whatever the platform answers: FB, TB and ROT hold their reset values, and the
parameters and the host's words are unchanged (R176, R217). -/
def Obligations.InitKeepsConstructionState : Prop :=
  ∀ s t : State, exec .init s = .next t →
    (∀ i, i < 119 → readSlot t.fb i = ⟨0, 0, 0⟩) ∧ (∀ a, t.tb.read a = 0#8) ∧ t.rot = .deg0 ∧
    t.params = s.params ∧ t.cmds = s.cmds

/-- With SEQ_ABORT = true, INIT and SHUTDOWN stop at the first failed call. After a failed select or a failed release nothing
follows; after a failed SPI transfer on panel p only the release of panel p's own pin, the pin that was selected for it: no
later frame and no Sleep (R176, R177, R170, D10). -/
def Obligations.SeqAbortStopsAtFirstFailure : Prop :=
  ∀ (i : Instr) (s t : State) (before after : List Event), i = .init ∨ i = .shutdown →
    s.params.seqAbort = true → exec i s = .next t →
    (∀ pin level e, t.ev = s.ev ++ before ++ .pinWrite pin level (.err e) :: after → after = []) ∧
    (∀ conn bytes e, t.ev = s.ev ++ before ++ .spiTransfer conn bytes (.err e) :: after →
      ∃ (p : Panel) (earlier : List Event) (answer : Answer), conn = s.params.conn p ∧
        before = earlier ++ [.pinWrite (s.params.cs p) .low .ok] ∧
        after = [.pinWrite (s.params.cs p) .high answer])

/-- With SEQ_ABORT = false, an INIT or a SHUTDOWN that completes has attempted every frame of both panels, whichever of them
fail: its events are those of each frame of R175 or R177 in order, each sent on its own panel, so panel A's pin is selected 8
(or 3) times and then panel B's as often (R176, R177, D10). -/
def Obligations.SeqContinueSendsEveryFrame : Prop :=
  ∀ s t : State, s.params.seqAbort = false → t.busy = false →
    (exec .init s = .next t →
      ∃ evs, t.ev = s.ev ++ evs ∧
        evs = sequenceEvents s.params s.platform (bothPanels true (initFrames s.params)) 0 ∧
        evs.filterMap Event.selectedPin = List.replicate 8 s.params.csA ++ List.replicate 8 s.params.csB) ∧
    (s.phase = .ready → exec .shutdown s = .next t →
      ∃ evs, t.ev = s.ev ++ evs ∧
        evs = sequenceEvents s.params s.platform (bothPanels false (shutdownFrames s.params)) 0 ∧
        evs.filterMap Event.selectedPin = List.replicate 3 s.params.csA ++ List.replicate 3 s.params.csB)

/-- Frame of the panel commands, whatever the platform answers: SHOW leaves FB, ROT, PHASE, the parameters and the host's
words, and every TB byte in no LUT entry; SET_BRIGHTNESS and SHUTDOWN leave those and every byte of TB (R152, R174, R177,
R23, R25, R26, R30, R36). -/
def Obligations.PanelCommandsFrame : Prop :=
  ∀ (i : Instr) (s t : State), i = .showPanels ∨ (∃ br, i = .setBrightness br) ∨ i = .shutdown →
    exec i s = .next t →
    t.fb = s.fb ∧ t.rot = s.rot ∧ t.phase = s.phase ∧ t.params = s.params ∧ t.cmds = s.cmds ∧
    (s.tb.wf → ∀ a, a ∉ s.params.lut.offsets → t.tb.read a = s.tb.read a) ∧
    (i ≠ .showPanels → ∀ a, t.tb.read a = s.tb.read a)

/-- Panel A is addressed fully before panel B: the events a command appends are events on panel A's pin and connection
followed by events on panel B's (R179). -/
def Obligations.PanelABeforePanelB : Prop :=
  ∀ (i : Instr) (s t : State), exec i s = .next t →
    ∃ evsA evsB, t.ev = s.ev ++ evsA ++ evsB ∧
      (∀ e ∈ evsA, e.onPanel s.params .a) ∧ (∀ e ∈ evsB, e.onPanel s.params .b)

/-- Every frame a command sends is one of the ten forms of R88, and none begins with ReadDisplay 0x81 (R90). -/
def Obligations.OnlyTheTenFrameForms : Prop :=
  ∀ (i : Instr) (s t : State), exec i s = .next t →
    ∃ evs, t.ev = s.ev ++ evs ∧
      ∀ conn bytes answer, Event.spiTransfer conn bytes answer ∈ evs →
        FrameForm s.params bytes ∧ bytes.head? ≠ some 0x81#8

/-! ### Errors and hangs (R171, R210 to R222) -/

/-- A command that completes reports its first transport failure in event order: CODE, EPANEL, EPHASE, EFRAME and ERR_IO are
those of the first frame that failed; where no call failed, CODE is not TRANSPORT_ERROR and those fields are 0 and none (R211,
R213, R214). -/
def Obligations.FirstFailureIsReported : Prop :=
  ∀ (i : Instr) (s t : State), exec i s = .next t → t.busy = false →
    (∃ evs, t.ev = s.ev ++ evs ∧
      firstFailed evs = (sequenceFailure s.platform (commandJobs i s) 0).map fun f => (f.step, f.error)) ∧
    match sequenceFailure s.platform (commandJobs i s) 0 with
    | none =>
      statusCode t.status ≠ 2 ∧ statusEpanel t.status = 0 ∧ statusEphase t.status = 0 ∧ statusEframe t.status = 0 ∧
      t.errIo = none
    | some f =>
      statusCode t.status = 2 ∧ statusEpanel t.status = f.panel.code ∧ statusEphase t.status = f.step.code ∧
      statusEframe t.status = BitVec.ofNat 4 f.frame ∧ t.errIo = some f.error

/-- The release guarantee: a transfer that returns and whose select returned Ok has sent its frame once and then driven the
same pin high once, whatever the SPI result; a transfer whose select failed has issued neither, and reports it (R172). -/
def Obligations.TransferReleasesThePin : Prop :=
  ∀ (p : Panel) (frame : List Byte) (s t : State) (r : Option (XferStep × IOError)), xfer p frame s = .done r t →
    (s.platform.answer 0 = .ok →
      ∃ spi release, t.ev = s.ev ++ [.pinWrite (s.params.cs p) .low .ok, .spiTransfer (s.params.conn p) frame spi,
        .pinWrite (s.params.cs p) .high release]) ∧
    (∀ e, s.platform.answer 0 = .err e → t.ev = s.ev ++ [.pinWrite (s.params.cs p) .low (.err e)] ∧
      r = some (.pinLow, e))

/-- Where the SPI transfer and the release of a transfer both fail, the SPI failure is reported and the release failure is
not. So it is for any transfer, and for the STATUS and ERR_IO of a panel command whose first transfer fails so (R171). -/
def Obligations.SpiErrorBeforeReleaseError : Prop :=
  (∀ (p : Panel) (frame : List Byte) (s : State) (e e' : IOError),
    s.platform.answer 0 = .ok → s.platform.answer 1 = .err e → s.platform.answer 2 = .err e' →
    ∃ t, xfer p frame s = .done (some (.spi, e)) t) ∧
  ∀ (i : Instr) (s t : State) (e e' : IOError),
    i = .init ∨ s.phase = .ready ∧ (i = .showPanels ∨ (∃ br, i = .setBrightness br) ∨ i = .shutdown) →
    s.platform.answer 0 = .ok → s.platform.answer 1 = .err e → s.platform.answer 2 = .err e' →
    exec i s = .next t → t.busy = false →
    t.status = 0x22#32 ∧ t.errIo = some e

/-- EPANEL, EPHASE and EFRAME of a failing frame, in whichever step it fails. Where every call before panel p's frame k is
answered Ok and that frame's transfer fails in a step with e, a command that completes reports TRANSPORT_ERROR with EPANEL = p,
that step, EFRAME = k and ERR_IO = e: INIT (k < 8), SHUTDOWN (k < 3), and with EFRAME = 0 SHOW and SET_BRIGHTNESS. INIT and
SHUTDOWN do complete then under SEQ_ABORT = true. After INIT the phase is UNINIT. INIT's frames after the first rest on Sleep
returning (R178, D21, log 5) (R152, R174, R176, R177, R213). -/
def Obligations.SequencesReportTheFailingFrame : Prop :=
  ∀ (s t : State) (p : Panel) (k : Nat) (xferStep : XferStep) (e : IOError),
    (k < 8 → s.platform.AllOk ((if p = .b then 24 else 0) + 3 * k) →
      s.platform.failureAt ((if p = .b then 24 else 0) + 3 * k) = some (xferStep, e) → exec .init s = .next t →
      s.params.seqAbort = true ∨ t.busy = false →
      t.status = BitVec.ofNat 32 (2 + (if p = .b then 16 else 0) + 32 * xferStep.code.toNat + 256 * k) ∧
      t.errIo = some e ∧ t.phase = .uninit ∧ t.busy = false) ∧
    (k < 3 → s.phase = .ready → s.platform.AllOk ((if p = .b then 9 else 0) + 3 * k) →
      s.platform.failureAt ((if p = .b then 9 else 0) + 3 * k) = some (xferStep, e) → exec .shutdown s = .next t →
      s.params.seqAbort = true ∨ t.busy = false →
      t.status = BitVec.ofNat 32 (2 + (if p = .b then 16 else 0) + 32 * xferStep.code.toNat + 256 * k) ∧
      t.errIo = some e ∧ t.phase = .ready ∧ t.busy = false) ∧
    (∀ i : Instr, i = .showPanels ∨ (∃ br, i = .setBrightness br) → s.phase = .ready →
      s.platform.AllOk (if p = .b then 3 else 0) →
      s.platform.failureAt (if p = .b then 3 else 0) = some (xferStep, e) → exec i s = .next t → t.busy = false →
      t.status = BitVec.ofNat 32 (2 + (if p = .b then 16 else 0) + 32 * xferStep.code.toNat) ∧ t.errIo = some e)

/-- A command is stuck exactly where a PinWrite or a SpiTransfer of its own is never answered (R221). R221 counts Sleep among
the calls that may hang; that a Sleep never does is R178 and D21 (log 5). That the unanswered call stands in EV is the model's
reading (log 8). -/
def Obligations.HangsExactlyOnAnUnansweredCall : Prop :=
  ∀ (i : Instr) (s t : State), exec i s = .next t →
    ∃ evs, t.ev = s.ev ++ evs ∧ (t.busy = true ↔ ∃ e ∈ evs, e.unanswered = true)

/-- A command left with BUSY = 1 is stuck: STATUS and ERR_IO still hold the previous command's result, no later step changes
anything, and the last event is the call that is never answered (R221, R32). That this call is a PinWrite or a SpiTransfer and
never a Sleep is R178 and D21 (log 5), against R221's list; that it stands in EV is the model's reading (log 8); that a step
of a stuck block answers the same state is the model's choice (log 6). -/
def Obligations.HungCommandIsStuck : Prop :=
  ∀ (i : Instr) (s t : State), exec i s = .next t → t.busy = true →
    t.status = s.status ∧ t.errIo = s.errIo ∧ step t = .next t ∧
    ∃ evs e, t.ev = s.ev ++ evs ++ [e] ∧
      ((∃ pin level, e = .pinWrite pin level .never) ∨ ∃ conn bytes, e = .spiTransfer conn bytes .never)

/-- A command completes where every PinWrite and SpiTransfer it can make is answered, with Ok or an error: 48 answers are
enough for any command (R210, R221, R222). For INIT this rests on Sleep returning (R178, D21, log 5). The completion may be
NOT_INITIALISED or TRANSPORT_ERROR. -/
def Obligations.AnsweredCommandsComplete : Prop :=
  ∀ (i : Instr) (s : State), s.platform.AllAnswered 48 → ∃ t, exec i s = .next t ∧ t.busy = false

/-- After any completion, a transport error included, the next command is accepted (R222). -/
def Obligations.CompletionAcceptsTheNextCommand : Prop :=
  ∀ (i j : Instr) (s t : State) (rest : List CmdWord), j.wellFormed = true → s.cmds = encode j :: rest →
    exec i s = .next t → t.busy = false →
    step t = exec j { t with cmds := rest }

/-! ### The whole machine -/

/-- The machine after reset holds the values of R240: FB black, ROT 0 degrees, TB zero, UNINIT, STATUS 0, ERR_IO none,
BUSY 0, EV empty (R240). -/
def Obligations.ResetValues : Prop :=
  (∀ i, i < 119 → readSlot State.reset.fb i = ⟨0, 0, 0⟩) ∧ State.reset.rot.code = 0b00#2 ∧
  (∀ a, State.reset.tb.read a = 0#8) ∧ State.reset.phase = .uninit ∧ State.reset.status = 0#32 ∧
  State.reset.errIo = none ∧ State.reset.busy = false ∧ State.reset.ev = []

/-- The machine after reset is a legal state. -/
def Obligations.ResetIsLegal : Prop := LegalState State.reset

/-- Every step keeps the legal states: the parameters, a canonical transfer buffer with every byte at most 63 and the
unaddressed bytes 0, a legal STATUS with ERR_IO held exactly on TRANSPORT_ERROR, only the ten frame forms in EV, and EV
well framed by the chip-select pins (R28, R31, R33, R62, R63, R88, R172, R245). -/
def Obligations.StepKeepsLegalStates : Prop :=
  ∀ s t : State, LegalState s → step s = .next t → LegalState t

/-- EV only grows, and the parameters, LUT and panel descriptors never change (R35, R28, R29). -/
def Obligations.TraceIsAppendOnly : Prop :=
  ∀ s t : State, step s = .next t → s.ev <+: t.ev ∧ t.params = s.params

/-- Only SET_PIXEL, SET_ALL, CLEAR and INIT write FB; only SET_ROTATION with a legal operand and INIT write ROT; only SHOW and
INIT write TB; only INIT writes PHASE (R23, R25, R26, R30). -/
def Obligations.OnlyTheNamedCommandsWrite : Prop :=
  ∀ (i : Instr) (s t : State), exec i s = .next t →
    (t.fb ≠ s.fb → (∃ x y r g b, i = .setPixel x y r g b) ∨ (∃ r g b, i = .setAll r g b) ∨ i = .clear ∨ i = .init) ∧
    (t.rot ≠ s.rot → i = .setRotation 0 ∨ i = .setRotation 90 ∨ i = .setRotation 180 ∨ i = .setRotation 270 ∨
      i = .init) ∧
    (t.tb ≠ s.tb → i = .showPanels ∨ i = .init) ∧
    (t.phase ≠ s.phase → i = .init)

/-- No command returns FB contents to the host: two states that differ only in FB and TB stay alike, after any number of
steps, in everything the host reads and in every field but FB, TB and EV (R23, R60). The two runs send different frames and
are given the same answers, call by call: an answer is drawn by its number alone, which is the model's choice (log 2, R67), so
the statement speaks of platforms whose answers do not depend on what is sent. -/
def Obligations.NoReadbackOfFrameBuffer : Prop :=
  ∀ (n : Nat) (s t : State) (fb : FrameBuffer) (tb : Memory), Host.Core.run Sys2Proof.core n s = .next t →
    ∃ t' : State, Host.Core.run Sys2Proof.core n { s with fb := fb, tb := tb } = .next t' ∧
      hostRead t' = hostRead t ∧ t'.rot = t.rot ∧ t'.phase = t.phase ∧ t'.cmds = t.cmds ∧ t'.platform = t.platform ∧
      t'.ev.length = t.ev.length

/-- FB changes reach the panels only through SHOW: any other command appends the same events whatever FB holds (R156,
R248). -/
def Obligations.OnlyShowSendsTheFrameBuffer : Prop :=
  ∀ (i : Instr) (s t : State) (fb : FrameBuffer), i ≠ .showPanels → exec i s = .next t →
    ∃ t', exec i { s with fb := fb } = .next t' ∧ t'.ev = t.ev

/-- What the assembler accepts has a word that decodes to it: a value outside its field is refused, and no reserved bit is
set (R86, R81). -/
def Obligations.AssembledLinesDecode : Prop :=
  ∀ (line : List Char) (i : Instr), assembleLine line = .ok (some i) → i.wellFormed = true ∧ decode (encode i) = .ok i

/-- The parameters after reset have the defaults of R9 where it gives one, and are legal where it leaves them open: LUT-DISTINCT
(R28) and the clock bound (R91). -/
def Obligations.DefaultParameters : Prop :=
  State.reset.params.coordDomain = .shape ∧ State.reset.params.showShortCircuit = false ∧
  State.reset.params.seqAbort = true ∧
  (∀ c : Fin 64, State.reset.params.argsBright[c] = [BitVec.ofNat 8 c.val]) ∧
  State.reset.params.cmdBits = 64 ∧ State.reset.params.coordBits = 8 ∧
  State.reset.params.lut.offsets.Nodup ∧ State.reset.params.spiClk ≤ 600000
end

