-- ==== Sys2Proof/Laws/Bits.lean ====
section
/-! SUPPORT. Fields of a word that is written as a concatenation: reading a field back (R10). A word's literal width and its
sum of widths are the same number, so these lemmas are applied with `exact` or `trans`, not by rewriting. -/

namespace Sys2Proof

/-- The low field of `{x, y}` is y. -/
theorem extract_append_low {w v : Nat} (x : BitVec w) (y : BitVec v) : (x ++ y).extractLsb' 0 v = y := by
  ext i hi
  simp [BitVec.getElem_extractLsb', BitVec.getLsbD_append, hi]

/-- A field of `{x, y}` that lies above y is a field of x. -/
theorem extract_append_high {w v : Nat} (x : BitVec w) (y : BitVec v) (i n : Nat) :
    (x ++ y).extractLsb' (v + i) n = x.extractLsb' i n := by
  ext k hk
  simp [BitVec.getElem_extractLsb', BitVec.getLsbD_append, Nat.add_assoc]

end Sys2Proof
end

