-- ==== Sys2Proof/Laws/State.lean ====
section
/-! SUPPORT. What each named update of State does to each field: one lemma a field, true by rfl, so that no proof unfolds a
record update. -/

namespace Sys2Proof.Machine

@[simp] theorem record_params (e : Event) (s : State) : (record e s).params = s.params := rfl
@[simp] theorem record_fb (e : Event) (s : State) : (record e s).fb = s.fb := rfl
@[simp] theorem record_rot (e : Event) (s : State) : (record e s).rot = s.rot := rfl
@[simp] theorem record_tb (e : Event) (s : State) : (record e s).tb = s.tb := rfl
@[simp] theorem record_phase (e : Event) (s : State) : (record e s).phase = s.phase := rfl
@[simp] theorem record_status (e : Event) (s : State) : (record e s).status = s.status := rfl
@[simp] theorem record_errIo (e : Event) (s : State) : (record e s).errIo = s.errIo := rfl
@[simp] theorem record_busy (e : Event) (s : State) : (record e s).busy = s.busy := rfl
@[simp] theorem record_ev (e : Event) (s : State) : (record e s).ev = s.ev ++ [e] := rfl
@[simp] theorem record_cmds (e : Event) (s : State) : (record e s).cmds = s.cmds := rfl
@[simp] theorem record_platform (e : Event) (s : State) : (record e s).platform = s.platform := rfl

@[simp] theorem settle_params (s : State) : (settle s).params = s.params := rfl
@[simp] theorem settle_fb (s : State) : (settle s).fb = s.fb := rfl
@[simp] theorem settle_rot (s : State) : (settle s).rot = s.rot := rfl
@[simp] theorem settle_tb (s : State) : (settle s).tb = s.tb := rfl
@[simp] theorem settle_phase (s : State) : (settle s).phase = s.phase := rfl
@[simp] theorem settle_status (s : State) : (settle s).status = s.status := rfl
@[simp] theorem settle_errIo (s : State) : (settle s).errIo = s.errIo := rfl
@[simp] theorem settle_busy (s : State) : (settle s).busy = s.busy := rfl
@[simp] theorem settle_ev (s : State) : (settle s).ev = s.ev ++ [.sleep s.params.settleDelay] := rfl
@[simp] theorem settle_cmds (s : State) : (settle s).cmds = s.cmds := rfl
@[simp] theorem settle_platform (s : State) : (settle s).platform = s.platform := rfl

@[simp] theorem beginCommand_params (s : State) : (beginCommand s).params = s.params := rfl
@[simp] theorem beginCommand_fb (s : State) : (beginCommand s).fb = s.fb := rfl
@[simp] theorem beginCommand_rot (s : State) : (beginCommand s).rot = s.rot := rfl
@[simp] theorem beginCommand_tb (s : State) : (beginCommand s).tb = s.tb := rfl
@[simp] theorem beginCommand_phase (s : State) : (beginCommand s).phase = s.phase := rfl
@[simp] theorem beginCommand_status (s : State) : (beginCommand s).status = s.status := rfl
@[simp] theorem beginCommand_errIo (s : State) : (beginCommand s).errIo = s.errIo := rfl
@[simp] theorem beginCommand_busy (s : State) : (beginCommand s).busy = true := rfl
@[simp] theorem beginCommand_ev (s : State) : (beginCommand s).ev = s.ev := rfl
@[simp] theorem beginCommand_cmds (s : State) : (beginCommand s).cmds = s.cmds := rfl
@[simp] theorem beginCommand_platform (s : State) : (beginCommand s).platform = s.platform := rfl

@[simp] theorem finish_params (c : Completion) (s : State) : (finish c s).params = s.params := rfl
@[simp] theorem finish_fb (c : Completion) (s : State) : (finish c s).fb = s.fb := rfl
@[simp] theorem finish_rot (c : Completion) (s : State) : (finish c s).rot = s.rot := rfl
@[simp] theorem finish_tb (c : Completion) (s : State) : (finish c s).tb = s.tb := rfl
@[simp] theorem finish_phase (c : Completion) (s : State) : (finish c s).phase = s.phase := rfl
@[simp] theorem finish_status (c : Completion) (s : State) : (finish c s).status = c.status := rfl
@[simp] theorem finish_errIo (c : Completion) (s : State) : (finish c s).errIo = c.errIo := rfl
@[simp] theorem finish_busy (c : Completion) (s : State) : (finish c s).busy = false := rfl
@[simp] theorem finish_ev (c : Completion) (s : State) : (finish c s).ev = s.ev := rfl
@[simp] theorem finish_cmds (c : Completion) (s : State) : (finish c s).cmds = s.cmds := rfl
@[simp] theorem finish_platform (c : Completion) (s : State) : (finish c s).platform = s.platform := rfl

@[simp] theorem construct_params (s : State) : (construct s).params = s.params := rfl
@[simp] theorem construct_fb (s : State) : (construct s).fb = fillSlots Rgb.black := rfl
@[simp] theorem construct_rot (s : State) : (construct s).rot = .deg0 := rfl
@[simp] theorem construct_tb (s : State) : (construct s).tb = [] := rfl
@[simp] theorem construct_phase (s : State) : (construct s).phase = .uninit := rfl
@[simp] theorem construct_status (s : State) : (construct s).status = s.status := rfl
@[simp] theorem construct_errIo (s : State) : (construct s).errIo = s.errIo := rfl
@[simp] theorem construct_busy (s : State) : (construct s).busy = s.busy := rfl
@[simp] theorem construct_ev (s : State) : (construct s).ev = s.ev := rfl
@[simp] theorem construct_cmds (s : State) : (construct s).cmds = s.cmds := rfl
@[simp] theorem construct_platform (s : State) : (construct s).platform = s.platform := rfl

@[simp] theorem present_params (w : CmdWord) (s : State) : (present w s).params = s.params := rfl
@[simp] theorem present_fb (w : CmdWord) (s : State) : (present w s).fb = s.fb := rfl
@[simp] theorem present_rot (w : CmdWord) (s : State) : (present w s).rot = s.rot := rfl
@[simp] theorem present_tb (w : CmdWord) (s : State) : (present w s).tb = s.tb := rfl
@[simp] theorem present_phase (w : CmdWord) (s : State) : (present w s).phase = s.phase := rfl
@[simp] theorem present_status (w : CmdWord) (s : State) : (present w s).status = s.status := rfl
@[simp] theorem present_errIo (w : CmdWord) (s : State) : (present w s).errIo = s.errIo := rfl
@[simp] theorem present_busy (w : CmdWord) (s : State) : (present w s).busy = s.busy := rfl
@[simp] theorem present_ev (w : CmdWord) (s : State) : (present w s).ev = s.ev := rfl
@[simp] theorem present_cmds (w : CmdWord) (s : State) : (present w s).cmds = s.cmds ++ [w] := rfl
@[simp] theorem present_platform (w : CmdWord) (s : State) : (present w s).platform = s.platform := rfl

@[simp] theorem State.withFetchWord_params (s : State) (nbits w : Nat) : (s.withFetchWord nbits w).params = s.params := rfl
@[simp] theorem State.withFetchWord_fb (s : State) (nbits w : Nat) : (s.withFetchWord nbits w).fb = s.fb := rfl
@[simp] theorem State.withFetchWord_rot (s : State) (nbits w : Nat) : (s.withFetchWord nbits w).rot = s.rot := rfl
@[simp] theorem State.withFetchWord_tb (s : State) (nbits w : Nat) : (s.withFetchWord nbits w).tb = s.tb := rfl
@[simp] theorem State.withFetchWord_phase (s : State) (nbits w : Nat) : (s.withFetchWord nbits w).phase = s.phase := rfl
@[simp] theorem State.withFetchWord_status (s : State) (nbits w : Nat) : (s.withFetchWord nbits w).status = s.status := rfl
@[simp] theorem State.withFetchWord_errIo (s : State) (nbits w : Nat) : (s.withFetchWord nbits w).errIo = s.errIo := rfl
@[simp] theorem State.withFetchWord_busy (s : State) (nbits w : Nat) : (s.withFetchWord nbits w).busy = false := rfl
@[simp] theorem State.withFetchWord_ev (s : State) (nbits w : Nat) : (s.withFetchWord nbits w).ev = s.ev := rfl
@[simp] theorem State.withFetchWord_cmds (s : State) (nbits w : Nat) : (s.withFetchWord nbits w).cmds = BitVec.ofNat 64 (w % 2 ^ nbits) :: s.cmds := rfl
@[simp] theorem State.withFetchWord_platform (s : State) (nbits w : Nat) : (s.withFetchWord nbits w).platform = s.platform := rfl

/-- The state after a number of calls have been answered and recorded: only EV and the platform differ. -/
def State.logged (s : State) (evs : List Event) (n : Nat) : State :=
  { s with ev := s.ev ++ evs, platform := s.platform.advanceBy n }

@[simp] theorem State.logged_params (s : State) (evs : List Event) (n : Nat) : (s.logged evs n).params = s.params := rfl
@[simp] theorem State.logged_fb (s : State) (evs : List Event) (n : Nat) : (s.logged evs n).fb = s.fb := rfl
@[simp] theorem State.logged_rot (s : State) (evs : List Event) (n : Nat) : (s.logged evs n).rot = s.rot := rfl
@[simp] theorem State.logged_tb (s : State) (evs : List Event) (n : Nat) : (s.logged evs n).tb = s.tb := rfl
@[simp] theorem State.logged_phase (s : State) (evs : List Event) (n : Nat) : (s.logged evs n).phase = s.phase := rfl
@[simp] theorem State.logged_status (s : State) (evs : List Event) (n : Nat) : (s.logged evs n).status = s.status := rfl
@[simp] theorem State.logged_errIo (s : State) (evs : List Event) (n : Nat) : (s.logged evs n).errIo = s.errIo := rfl
@[simp] theorem State.logged_busy (s : State) (evs : List Event) (n : Nat) : (s.logged evs n).busy = s.busy := rfl
@[simp] theorem State.logged_ev (s : State) (evs : List Event) (n : Nat) : (s.logged evs n).ev = s.ev ++ evs := rfl
@[simp] theorem State.logged_cmds (s : State) (evs : List Event) (n : Nat) : (s.logged evs n).cmds = s.cmds := rfl
@[simp] theorem State.logged_platform (s : State) (evs : List Event) (n : Nat) : (s.logged evs n).platform = s.platform.advanceBy n := rfl

@[simp] theorem State.logged_logged (s : State) (e1 e2 : List Event) (n1 n2 : Nat) :
    (s.logged e1 n1).logged e2 n2 = s.logged (e1 ++ e2) (n1 + n2) := by
  simp [State.logged, Platform.advanceBy, List.append_assoc, Nat.add_assoc]

@[simp] theorem State.logged_none (s : State) : s.logged [] 0 = s := by
  simp [State.logged, Platform.advanceBy]

/-- Drawing one answer is advancing by one. -/
theorem Platform.advance_eq (pl : Platform) : pl.advance = pl.advanceBy 1 := by
  simp [Platform.advance, Platform.advanceBy]

/-- After `n` draws the next answer is the one that stood `n` places further. -/
@[simp] theorem Platform.answer_advanceBy (pl : Platform) (n k : Nat) :
    (pl.advanceBy n).answer k = pl.answer (n + k) := by
  simp [Platform.answer, Platform.advanceBy, List.getElem?_drop, Nat.add_assoc]

end Sys2Proof.Machine
end

