-- ==== Sys2Proof/Laws/Memory.lean ====
section
/-! SUPPORT. The transfer buffer: a read after a write, and that every operation keeps the canonical form. -/

namespace Sys2Proof.Machine

@[simp] theorem Memory.read_nil (a : Nat) : Memory.read [] a = 0#8 := rfl

/-- An offset below every listed one holds 0x00. -/
theorem Memory.read_of_lt {m : Memory} {a : Nat} (h : ∀ c ∈ m, a < c.1) : m.read a = 0#8 := by
  induction m with
  | nil => rfl
  | cons c rest ih =>
    obtain ⟨b, v⟩ := c
    have hb : a < b := h (b, v) (by simp)
    simp [Memory.read, Nat.ne_of_lt hb, ih fun c hc => h c (by simp [hc])]

/-- Read after write, over a memory whose offsets rise. -/
theorem Memory.read_write {m : Memory} (h : m.Pairwise fun c d => c.1 < d.1) (a a' : Nat) (v : Byte) :
    (m.write a v).read a' = if a' = a then v else m.read a' := by
  induction m with
  | nil => by_cases hv : v = 0#8 <;> by_cases ha : a' = a <;> simp [Memory.write, Memory.read, hv, ha]
  | cons c rest ih =>
    obtain ⟨b, w⟩ := c
    obtain ⟨hb, hrest⟩ := List.pairwise_cons.1 h
    have hlow : ∀ x, x ≤ b → Memory.read rest x = 0#8 := fun x hx =>
      Memory.read_of_lt fun c hc => Nat.lt_of_le_of_lt hx (hb c hc)
    simp only [Memory.write]
    split
    · rename_i hab
      by_cases hv : v = 0#8
      · by_cases ha : a' = a
        · subst ha; simp [hv, Memory.read, Nat.ne_of_lt hab, hlow a' hab.le]
        · simp [hv, ha]
      · by_cases ha : a' = a <;> simp [hv, ha, Memory.read]
    · split
      · rename_i hab; subst hab
        by_cases hv : v = 0#8
        · by_cases ha : a' = a
          · subst ha; simp [hv, hlow a' le_rfl]
          · simp [hv, ha, Memory.read]
        · by_cases ha : a' = a <;> simp [hv, ha, Memory.read]
      · rename_i h1 h2
        by_cases ha : a' = b
        · have hne : ¬a' = a := fun h => h2 (h.symm.trans ha)
          simp [Memory.read, ha, ha ▸ hne]
        · simp [Memory.read, ha, ih hrest]

/-- Where the entries of a written memory come from. -/
theorem Memory.mem_write {m : Memory} {a : Nat} {v : Byte} {c : Host.Cell} (h : c ∈ m.write a v) :
    c ∈ m ∨ c = (a, v) ∧ v ≠ 0#8 := by
  induction m with
  | nil => by_cases hv : v = 0#8 <;> simp_all [Memory.write]
  | cons d rest ih =>
    obtain ⟨b, w⟩ := d
    simp only [Memory.write] at h
    split at h
    · by_cases hv : v = 0#8
      · left; simpa [hv] using h
      · simp only [hv, if_false, List.mem_cons] at h ⊢
        tauto
    · split at h
      · by_cases hv : v = 0#8
        · simp only [hv, if_true] at h; left; simp [h]
        · simp only [hv, if_false, List.mem_cons] at h ⊢
          tauto
      · simp only [List.mem_cons] at h ⊢
        rcases h with h | h
        · exact .inl (.inl h)
        · rcases ih h with h | h
          · exact .inl (.inr h)
          · exact .inr h

/-- A write keeps the offsets rising. -/
theorem Memory.write_sorted {m : Memory} (h : m.Pairwise fun c d => c.1 < d.1) (a : Nat) (v : Byte) :
    (m.write a v).Pairwise fun c d => c.1 < d.1 := by
  induction m with
  | nil => by_cases hv : v = 0#8 <;> simp [Memory.write, hv]
  | cons d rest ih =>
    obtain ⟨b, w⟩ := d
    obtain ⟨hb, hrest⟩ := List.pairwise_cons.1 h
    simp only [Memory.write]
    split
    · rename_i hab
      by_cases hv : v = 0#8
      · simpa [hv] using h
      · simp only [hv, if_false]
        refine List.pairwise_cons.2 ⟨fun c hc => ?_, h⟩
        rcases List.mem_cons.1 hc with rfl | hc
        · exact hab
        · exact Nat.lt_trans hab (hb c hc)
    · split
      · rename_i hab; subst hab
        by_cases hv : v = 0#8
        · simpa [hv] using hrest
        · simpa [hv] using ⟨fun c d hc => hb (c, d) hc, hrest⟩
      · rename_i h1 h2
        refine List.pairwise_cons.2 ⟨fun c hc => ?_, ih hrest⟩
        rcases Memory.mem_write hc with hc | ⟨rfl, -⟩
        · exact hb c hc
        · show b < a
          omega

/-- A write inside the buffer keeps the canonical form. -/
theorem Memory.write_wf {m : Memory} (h : m.wf) {a : Nat} (ha : a < 448) (v : Byte) : (m.write a v).wf := by
  refine ⟨Memory.write_sorted h.1 a v, fun c hc => ?_⟩
  rcases Memory.mem_write hc with hc | ⟨rfl, hv⟩
  · exact h.2 c hc
  · exact ⟨hv, ha⟩

/-- The repack of one slot keeps the canonical form. -/
theorem repackSlot_wf {tb : Memory} (h : tb.wf) (e : LutEntry) (c : Rgb) : (repackSlot tb e c).wf :=
  Memory.write_wf (Memory.write_wf (Memory.write_wf h e.ro.isLt _) e.go.isLt _) e.bo.isLt _

theorem repackSlots_wf (l : List (LutEntry × Rgb)) {tb : Memory} (h : tb.wf) : (repackSlots l tb).wf := by
  induction l generalizing tb with
  | nil => exact h
  | cons p rest ih => exact ih (repackSlot_wf h p.1 p.2)

/-- The repack keeps the canonical form. -/
theorem repack_wf (lut : Lut) (fb : FrameBuffer) {tb : Memory} (h : tb.wf) : (repack lut fb tb).wf :=
  repackSlots_wf _ h

/-- The transfer buffer after reset has the canonical form. -/
theorem reset_tb_wf : Memory.wf State.reset.tb := by decide

/-- A byte an entry lists is what the entry's offset reads as. -/
theorem Memory.read_of_mem {m : Memory} (h : m.Pairwise fun c d => c.1 < d.1) {c : Host.Cell} (hc : c ∈ m) :
    m.read c.1 = c.2 := by
  induction m with
  | nil => simp at hc
  | cons d rest ih =>
    obtain ⟨hd, hrest⟩ := List.pairwise_cons.1 h
    rcases List.mem_cons.1 hc with rfl | hc
    · simp [Memory.read]
    · simp [Memory.read, (Nat.ne_of_lt (hd c hc)).symm, ih hrest hc]

/-- Canonical memories that read alike everywhere are the same list. -/
theorem Memory.eq_of_read_eq {m n : Memory} (hm : m.wf) (hn : n.wf) (h : ∀ a, m.read a = n.read a) : m = n := by
  have sub : ∀ {m n : Memory}, m.wf → n.wf → (∀ a, m.read a = n.read a) → ∀ c ∈ m, c ∈ n := by
    intro m n hm hn h c hc
    have hr : n.read c.1 = c.2 := by rw [← h, Memory.read_of_mem hm.1 hc]
    by_contra hcon
    have : ∀ n : Memory, c ∉ n → n.read c.1 = c.2 → c.2 = 0#8 := by
      intro n hnot hread
      induction n with
      | nil => exact hread.symm
      | cons d rest ih =>
        obtain ⟨b, w⟩ := d
        by_cases hb : c.1 = b
        · simp only [Memory.read, hb, if_true] at hread
          exact absurd (List.mem_cons.2 (.inl (Prod.ext hb hread.symm))) hnot
        · simp only [Memory.read, hb, if_false] at hread
          exact ih (fun hmem => hnot (List.mem_cons.2 (.inr hmem))) hread
    exact (hm.2 c hc).1 (this n hcon hr)
  have irr : ∀ {m : Memory}, m.wf → m.Nodup := fun hm =>
    hm.1.imp fun hlt heq => by rw [heq] at hlt; exact Nat.lt_irrefl _ hlt
  refine List.Perm.eq_of_pairwise (le := fun c d : Host.Cell => c.1 < d.1)
    (fun a b _ _ h1 h2 => absurd (Nat.lt_trans h1 h2) (Nat.lt_irrefl _)) hm.1 hn.1 ?_
  exact (List.perm_ext_iff_of_nodup (irr hm) (irr hn)).2 fun c =>
    ⟨sub hm hn h c, sub hn hm (fun a => (h a).symm) c⟩

@[simp] theorem Memory.length_slice (m : Memory) (a n : Nat) : (m.slice a n).length = n := by
  simp [Memory.slice]

end Sys2Proof.Machine
end

