-- ==== Sys2Proof/Laws/Operands.lean ====
section
/-! SUPPORT. The small lemmas of the operand computations (R110 to R117) and of the STATUS word (R31). -/

namespace Sys2Proof.Machine

@[simp] theorem accept_shape_iff (rot : Rotation) (x y : Int) :
    accept .shape rot x y = true ↔ 0 ≤ x ∧ x < (shape rot).1 ∧ 0 ≤ y ∧ y < (shape rot).2 := by
  simp [accept]

@[simp] theorem accept_fixed_iff (rot : Rotation) (x y : Int) :
    accept .fixed rot x y = true ↔ 0 ≤ x ∧ x < 17 ∧ 0 ≤ y ∧ y < 7 := by
  simp [accept]

@[simp] theorem accept_indexOnly (rot : Rotation) (x y : Int) : accept .indexOnly rot x y = true := rfl

@[simp] theorem inBounds_iff (i : Int) : inBounds i = true ↔ 0 ≤ i ∧ i < 119 := by
  simp [inBounds]

/-- The range of X and Y (R82). -/
theorem coordFits_iff (v : Int) : CoordFits v ↔ -128 ≤ v ∧ v ≤ 127 := by
  norm_num [CoordFits]
  omega

/-- The code SET_BRIGHTNESS sends (R174). -/
@[simp] theorem clampBrightness_val (br : Byte) : (clampBrightness br).val = min br.toNat 63 := rfl

/-- A slot that is written lies in the buffer (R112). -/
theorem pixelSlot_lt {dom : CoordDomain} {rot : Rotation} {x y : Int} {j : Nat} (h : pixelSlot dom rot x y = some j) :
    j < 119 := by
  unfold pixelSlot at h
  split at h
  · split at h
    · next hb => simp only [inBounds_iff] at hb; cases h; omega
    · cases h
  · cases h

/-- The slot of a write that is not dropped (R112). -/
theorem pixelSlot_of_accepted {dom : CoordDomain} {rot : Rotation} {x y : Int} (h1 : accept dom rot x y = true)
    (h2 : inBounds (remap rot x y) = true) : pixelSlot dom rot x y = some (remap rot x y).toNat := by
  simp only [pixelSlot, h1, h2, if_true]

/-- A dropped write (R112). -/
theorem pixelSlot_of_dropped {dom : CoordDomain} {rot : Rotation} {x y : Int}
    (h : ¬(accept dom rot x y = true ∧ inBounds (remap rot x y) = true)) : pixelSlot dom rot x y = none := by
  unfold pixelSlot
  split
  · split
    · exact absurd ⟨‹_›, ‹_›⟩ h
    · rfl
  · rfl

@[simp] theorem status_ok : Completion.status .ok = 0#32 := by decide
@[simp] theorem status_configError : Completion.status .configError = 1#32 := by decide
@[simp] theorem status_illegalCommand : Completion.status .illegalCommand = 3#32 := by decide
@[simp] theorem status_notInitialised : Completion.status .notInitialised = 4#32 := by decide

@[simp] theorem statusCode_0 : statusCode 0#32 = 0#4 := by decide
@[simp] theorem statusCode_1 : statusCode 1#32 = 1#4 := by decide
@[simp] theorem statusCode_3 : statusCode 3#32 = 3#4 := by decide
@[simp] theorem statusCode_4 : statusCode 4#32 = 4#4 := by decide

@[simp] theorem errIo_ok : Completion.errIo .ok = none := rfl
@[simp] theorem errIo_configError : Completion.errIo .configError = none := rfl
@[simp] theorem errIo_illegalCommand : Completion.errIo .illegalCommand = none := rfl
@[simp] theorem errIo_notInitialised : Completion.errIo .notInitialised = none := rfl
@[simp] theorem errIo_shape (w h : Nat) : Completion.errIo (.shape w h) = none := rfl
@[simp] theorem errIo_transportError (f : Failure) : Completion.errIo (.transportError f) = some f.error := rfl

/-- The fields of an assembled STATUS word (R31). -/
theorem packStatus_fields (h w : BitVec 8) (f : BitVec 4) (p : BitVec 2) (q : BitVec 1) (k : BitVec 4) :
    statusCode (packStatus h w f p q k) = k ∧ statusEpanel (packStatus h w f p q k) = q ∧
    statusEphase (packStatus h w f p q k) = p ∧ statusReserved7 (packStatus h w f p q k) = 0#1 ∧
    statusEframe (packStatus h w f p q k) = f ∧ statusReserved15 (packStatus h w f p q k) = 0#4 ∧
    statusShapeW (packStatus h w f p q k) = w ∧ statusShapeH (packStatus h w f p q k) = h := by
  refine ⟨extract_append_low _ k, ?_, ?_, ?_, ?_, ?_, ?_, ?_⟩
  · exact (extract_append_high _ k 0 1).trans (extract_append_low _ q)
  · exact (extract_append_high _ k 1 2).trans ((extract_append_high _ q 0 2).trans (extract_append_low _ p))
  · exact (extract_append_high _ k 3 1).trans ((extract_append_high _ q 2 1).trans
      ((extract_append_high _ p 0 1).trans (extract_append_low _ 0#1)))
  · exact (extract_append_high _ k 4 4).trans ((extract_append_high _ q 3 4).trans
      ((extract_append_high _ p 1 4).trans ((extract_append_high _ 0#1 0 4).trans (extract_append_low _ f))))
  · exact (extract_append_high _ k 8 4).trans ((extract_append_high _ q 7 4).trans
      ((extract_append_high _ p 5 4).trans ((extract_append_high _ 0#1 4 4).trans
        ((extract_append_high _ f 0 4).trans (extract_append_low _ 0#4)))))
  · exact (extract_append_high _ k 12 8).trans ((extract_append_high _ q 11 8).trans
      ((extract_append_high _ p 9 8).trans ((extract_append_high _ 0#1 8 8).trans
        ((extract_append_high _ f 4 8).trans ((extract_append_high _ 0#4 0 8).trans (extract_append_low _ w))))))
  · exact (extract_append_high _ k 20 8).trans ((extract_append_high _ q 19 8).trans
      ((extract_append_high _ p 17 8).trans ((extract_append_high _ 0#1 16 8).trans
        ((extract_append_high _ f 12 8).trans ((extract_append_high _ 0#4 8 8).trans
          ((extract_append_high h w 0 8).trans (BitVec.extractLsb'_eq_self)))))))

/-- CODE of a completion's STATUS word (R31, R211). -/
@[simp] theorem statusCode_status (c : Completion) : statusCode c.status = c.code := by
  cases c <;> exact (packStatus_fields _ _ _ _ _ _).1

/-- EPHASE of a transport error's STATUS word (R31, R213). -/
@[simp] theorem statusEphase_transportError (f : Failure) :
    statusEphase (Completion.status (.transportError f)) = f.step.code :=
  (packStatus_fields _ _ _ _ _ _).2.2.1

end Sys2Proof.Machine
end

