-- ==== Sys2Proof/Laws/Ops.lean ====
section
/-! SUPPORT. What each shared operation can do, said once: a platform call, a transfer, a sequence of frames, a command. -/

namespace Sys2Proof.Machine

/-- The state a part of a body leaves, whether it ends or hangs. -/
def Run.state {α : Type} : Run α → State
  | .done _ s => s
  | .hung s => s

@[simp] theorem Run.bind_done {α β : Type} (v : α) (s : State) (k : α → State → Run β) :
    (Run.done v s).bind k = k v s := rfl

@[simp] theorem Run.bind_hung {α β : Type} (s : State) (k : α → State → Run β) :
    (Run.hung s : Run α).bind k = .hung s := rfl

/-- A platform call: its answer decides between going on, going on with an error, and hanging. -/
theorem platformCall_eq (event : Answer → Event) (s : State) :
    platformCall event s =
      match s.platform.answer 0 with
      | .ok => .done none (s.logged [event .ok] 1)
      | .err e => .done (some e) (s.logged [event (.err e)] 1)
      | .never => .hung (s.logged [event .never] 1) := by
  unfold platformCall
  cases h : s.platform.answer 0 <;> simp [record, State.logged, Platform.advance_eq]

/-- A transfer whose select fails ends there: no transfer, no release (R170). -/
theorem xfer_select_err (p : Panel) (frame : List Byte) {s : State} {e : IOError}
    (h0 : s.platform.answer 0 = .err e) :
    xfer p frame s = .done (some (.pinLow, e)) (s.logged [.pinWrite (s.params.cs p) .low (.err e)] 1) := by
  simp [xfer, pinWrite, platformCall_eq, h0]

theorem xfer_select_never (p : Panel) (frame : List Byte) {s : State} (h0 : s.platform.answer 0 = .never) :
    xfer p frame s = .hung (s.logged [.pinWrite (s.params.cs p) .low .never] 1) := by
  simp [xfer, pinWrite, platformCall_eq, h0]

theorem xfer_spi_never (p : Panel) (frame : List Byte) {s : State} (h0 : s.platform.answer 0 = .ok)
    (h1 : s.platform.answer 1 = .never) :
    xfer p frame s = .hung (s.logged
      [.pinWrite (s.params.cs p) .low .ok, .spiTransfer (s.params.conn p) frame .never] 2) := by
  simp [xfer, pinWrite, spiTransfer, platformCall_eq, h0, h1]

theorem xfer_release_never (p : Panel) (frame : List Byte) {s : State} (h0 : s.platform.answer 0 = .ok)
    (h1 : s.platform.answer 1 ≠ .never) (h2 : s.platform.answer 2 = .never) :
    xfer p frame s = .hung (s.logged (xferEvents s.params p frame .ok (s.platform.answer 1) .never) 3) := by
  cases ha : s.platform.answer 1 <;>
    simp_all [xfer, pinWrite, spiTransfer, platformCall_eq, xferEvents]

/-- A transfer whose three calls are answered, whatever the second and third answers are (R170, R171). -/
theorem xfer_answered (p : Panel) (frame : List Byte) {s : State} (h0 : s.platform.answer 0 = .ok)
    (h1 : s.platform.answer 1 ≠ .never) (h2 : s.platform.answer 2 ≠ .never) :
    xfer p frame s =
      .done (transferError (s.platform.answer 1).error (s.platform.answer 2).error)
        (s.logged (xferEvents s.params p frame .ok (s.platform.answer 1) (s.platform.answer 2)) 3) := by
  cases ha : s.platform.answer 1 <;> cases hb : s.platform.answer 2 <;>
    simp_all [xfer, pinWrite, spiTransfer, platformCall_eq, xferEvents, Answer.error]

/-- Everything a transfer can do (R170, R221). -/
theorem xfer_cases (p : Panel) (frame : List Byte) (s : State) :
    (∃ e, s.platform.answer 0 = .err e ∧
      xfer p frame s = .done (some (.pinLow, e)) (s.logged [.pinWrite (s.params.cs p) .low (.err e)] 1)) ∨
    (s.platform.answer 0 = .never ∧
      xfer p frame s = .hung (s.logged [.pinWrite (s.params.cs p) .low .never] 1)) ∨
    (s.platform.answer 0 = .ok ∧ s.platform.answer 1 = .never ∧
      xfer p frame s = .hung (s.logged
        [.pinWrite (s.params.cs p) .low .ok, .spiTransfer (s.params.conn p) frame .never] 2)) ∨
    (s.platform.answer 0 = .ok ∧ s.platform.answer 1 ≠ .never ∧ s.platform.answer 2 = .never ∧
      xfer p frame s = .hung (s.logged (xferEvents s.params p frame .ok (s.platform.answer 1) .never) 3)) ∨
    (s.platform.answer 0 = .ok ∧ s.platform.answer 1 ≠ .never ∧ s.platform.answer 2 ≠ .never ∧
      xfer p frame s = .done (transferError (s.platform.answer 1).error (s.platform.answer 2).error)
        (s.logged (xferEvents s.params p frame .ok (s.platform.answer 1) (s.platform.answer 2)) 3)) := by
  cases h0 : s.platform.answer 0 with
  | err e => exact .inl ⟨e, rfl, xfer_select_err p frame h0⟩
  | never => exact .inr (.inl ⟨rfl, xfer_select_never p frame h0⟩)
  | ok =>
    by_cases h1 : s.platform.answer 1 = .never
    · exact .inr (.inr (.inl ⟨rfl, h1, xfer_spi_never p frame h0 h1⟩))
    · by_cases h2 : s.platform.answer 2 = .never
      · exact .inr (.inr (.inr (.inl ⟨rfl, h1, h2, xfer_release_never p frame h0 h1 h2⟩)))
      · exact .inr (.inr (.inr (.inr ⟨rfl, h1, h2, xfer_answered p frame h0 h1 h2⟩)))

/-- A transfer only appends to EV and draws answers: every other field is as it was. -/
theorem xfer_state (p : Panel) (frame : List Byte) (s : State) :
    ∃ evs n, (xfer p frame s).state = s.logged evs n := by
  obtain ⟨e, -, h⟩ | ⟨-, h⟩ | ⟨-, -, h⟩ | ⟨-, -, -, h⟩ | ⟨-, -, -, h⟩ := xfer_cases p frame s <;>
    exact ⟨_, _, by rw [h]; rfl⟩

theorem settle_eq (s : State) : settle s = s.logged [.sleep s.params.settleDelay] 0 := by
  simp [settle, record, State.logged, Platform.advanceBy]

/-- One frame of a sequence: the transfer's result and, where there was no failure or no abort, the rest (R152, R176). -/
theorem runJobs_cons (abort : Bool) (job : Job) (rest : List Job) (first : Option Failure) (s : State) :
    runJobs abort (job :: rest) first s =
      (xfer job.panel job.bytes s).bind fun result s1 =>
        match result with
        | none => runJobs abort rest first (if job.settle then settle s1 else s1)
        | some (step, e) =>
          if abort then .done (first.or (some ⟨job.panel, step, job.index, e⟩)) s1
          else runJobs abort rest (first.or (some ⟨job.panel, step, job.index, e⟩))
            (if job.settle then settle s1 else s1) := rfl

/-- A sequence of frames only appends to EV and draws answers: every other field is as it was. -/
theorem runJobs_state (abort : Bool) (jobs : List Job) (first : Option Failure) (s : State) :
    ∃ evs n, (runJobs abort jobs first s).state = s.logged evs n := by
  induction jobs generalizing first s with
  | nil => exact ⟨[], 0, by simp [runJobs, Run.state]⟩
  | cons job rest ih =>
    have hset : ∀ s1 : State, ∃ evs, (if job.settle then settle s1 else s1) = s1.logged evs 0 := by
      intro s1
      by_cases hj : job.settle
      · exact ⟨_, by rw [if_pos hj]; exact settle_eq s1⟩
      · exact ⟨[], by rw [if_neg hj]; simp⟩
    have more : ∀ first' (evs : List Event) (n : Nat), ∃ evs' n',
        (runJobs abort rest first' (if job.settle then settle (s.logged evs n) else s.logged evs n)).state =
          s.logged evs' n' := by
      intro first' evs n
      obtain ⟨es, hes⟩ := hset (s.logged evs n)
      obtain ⟨evs', n', h'⟩ := ih first' ((s.logged evs n).logged es 0)
      exact ⟨_, _, by rw [hes, h', State.logged_logged, State.logged_logged]⟩
    rw [runJobs_cons]
    obtain ⟨evs, n, hx⟩ := xfer_state job.panel job.bytes s
    cases hr : xfer job.panel job.bytes s with
    | hung s1 =>
      rw [hr] at hx
      exact ⟨evs, n, hx⟩
    | done result s1 =>
      rw [hr] at hx
      simp only [Run.state] at hx
      subst hx
      cases result with
      | none => exact more first evs n
      | some pair =>
        simp only [Run.bind_done]
        by_cases ha : abort
        · subst ha; exact ⟨evs, n, rfl⟩
        · rw [if_neg ha]; exact more _ evs n

/-- A sequence of frames whose calls are all answered Ok: its events, in order, and no failure. -/
theorem runJobs_allOk (abort : Bool) (jobs : List Job) (first : Option Failure) (s : State)
    (h : s.platform.AllOk (3 * jobs.length)) :
    runJobs abort jobs first s = .done first (s.logged (okEvents s.params jobs) (3 * jobs.length)) := by
  induction jobs generalizing s with
  | nil => simp [runJobs, okEvents]
  | cons job rest ih =>
    simp only [List.length_cons] at h
    have h0 := h 0 (by omega)
    have h1 := h 1 (by omega)
    have h2 := h 2 (by omega)
    have hx := xfer_answered job.panel job.bytes h0 (by rw [h1]; decide) (by rw [h2]; decide)
    rw [runJobs_cons, hx, h1, h2]
    simp only [Answer.error, transferError, Run.bind_done]
    by_cases hs : job.settle
    · rw [if_pos hs, settle_eq, ih _ (fun k hk => by simpa using h (3 + k) (by omega))]
      simp [okEvents, hs, Nat.mul_add, Nat.add_comm]
    · rw [if_neg hs, ih _ (fun k hk => by simpa using h (3 + k) (by omega))]
      simp [okEvents, hs, Nat.mul_add, Nat.add_comm]

@[simp] theorem Run.close_done (c : Completion) (s : State) : (Run.done c s).close = finish c s := rfl

@[simp] theorem Run.close_hung (s : State) : (Run.hung s : Run Completion).close = s := rfl

@[simp] theorem whenReady_ready (body : State → Run Completion) {s : State} (h : s.phase = .ready) :
    whenReady body s = body s := by
  simp [whenReady, h]

@[simp] theorem whenReady_uninit (body : State → Run Completion) {s : State} (h : s.phase = .uninit) :
    whenReady body s = .done .notInitialised s := by
  simp [whenReady, h]

@[simp] theorem length_panelJobs (p : Panel) (b : Bool) (frames : List (List Byte)) :
    (panelJobs p b frames).length = frames.length := by
  simp [panelJobs]

@[simp] theorem length_bothPanels (b : Bool) (frames : List (List Byte)) :
    (bothPanels b frames).length = 2 * frames.length := by
  simp [bothPanels, Nat.two_mul]

end Sys2Proof.Machine
end

