-- ==== Sys2Proof/Laws/Params.lean ====
section
/-! SUPPORT. The parameters after reset are ones the spec allows (R28, R91). -/

namespace Sys2Proof.Machine

theorem spreadLut_offsets : spreadLut.offsets = List.range 357 := by decide +kernel

theorem spreadLut_distinct : spreadLut.Distinct := by
  rw [Lut.Distinct, spreadLut_offsets]
  exact List.nodup_range

/-- Whatever the opaque table is, the parameter LUT meets LUT-DISTINCT (R28). -/
theorem openLut_distinct : openLut.Distinct := by
  unfold openLut
  split
  · assumption
  · exact spreadLut_distinct

/-- Every table that meets LUT-DISTINCT is a possible value of the parameter LUT (R9). -/
theorem openLut_of_distinct (h : Config.rawLut.Distinct) : openLut = Config.rawLut := if_pos h

theorem resetParams_wf : resetParams.wf := ⟨openLut_distinct, Nat.min_le_right _ _, rfl, rfl⟩

/-- ARGS_BRIGHT at its default is the one byte of the code (R88, R89). -/
@[simp] theorem defaultArgsBright_get (c : Nat) (h : c < 64) : defaultArgsBright[c] = [BitVec.ofNat 8 c] := by
  simp [defaultArgsBright]

end Sys2Proof.Machine
end

