-- ==== Sys2Proof/Laws/PerInstr.lean ====
section
/-! SUPPORT. A law of every command as syntax: its word selects its own row of the opcode map (R83), so the mask's bits of
the word are the row's match and no reserved bit is set (R81). -/

namespace Sys2Proof.Laws.EncodesOwnRow

/-- The command's word meets the mask and match of its own row (R83). -/
def Statement (i : Instr) : Prop := i.row.selects (encode i) = true

/-- Masking a word of two fields masks each. -/
theorem and_fields {w v : Nat} {a b f : BitVec w} {c d e : BitVec v} (h1 : a &&& b = f) (h2 : c &&& d = e) :
    (a ++ c) &&& (b ++ d) = f ++ e := by
  subst h1 h2
  exact BitVec.and_append

theorem setPixel (x y : Int) (r g b : Byte) : Statement (.setPixel x y r g b) := by
  have h : (0x01#8 ++ BitVec.ofInt 8 x ++ BitVec.ofInt 8 y ++ 0#16 ++ r ++ g ++ b) &&&
      (0xFF#8 ++ 0#8 ++ 0#8 ++ 0xFFFF#16 ++ 0#8 ++ 0#8 ++ 0#8) =
      0x01#8 ++ 0#8 ++ 0#8 ++ 0#16 ++ 0#8 ++ 0#8 ++ 0#8 := by
    repeat' first | apply and_fields | exact BitVec.and_zero
    all_goals decide
  show Row.setPixel.selects (encode (.setPixel x y r g b)) = true
  exact beq_iff_eq.2 h

theorem setAll (r g b : Byte) : Statement (.setAll r g b) := by
  have h : (0x02#8 ++ 0#32 ++ r ++ g ++ b) &&& (0xFF#8 ++ 0xFFFFFFFF#32 ++ 0#8 ++ 0#8 ++ 0#8) =
      0x02#8 ++ 0#32 ++ 0#8 ++ 0#8 ++ 0#8 := by
    repeat' first | apply and_fields | exact BitVec.and_zero
    all_goals decide
  show Row.setAll.selects (encode (.setAll r g b)) = true
  exact beq_iff_eq.2 h

theorem clear : Statement .clear := beq_iff_eq.2 (by decide)

theorem setRotation (deg : Int) : Statement (.setRotation deg) := by
  have h : (0x04#8 ++ 0#24 ++ BitVec.ofInt 32 deg) &&& (0xFF#8 ++ 0xFFFFFF#24 ++ 0#32) =
      0x04#8 ++ 0#24 ++ 0#32 := and_fields (by decide) BitVec.and_zero
  show Row.setRotation.selects (encode (.setRotation deg)) = true
  exact beq_iff_eq.2 h

theorem getShape : Statement .getShape := beq_iff_eq.2 (by decide)

theorem showPanels : Statement .showPanels := beq_iff_eq.2 (by decide)

theorem setBrightness (br : Byte) : Statement (.setBrightness br) := by
  have h : (0x07#8 ++ 0#48 ++ br) &&& (0xFF#8 ++ 0xFFFFFFFFFFFF#48 ++ 0#8) = 0x07#8 ++ 0#48 ++ 0#8 :=
    and_fields (by decide) BitVec.and_zero
  show Row.setBrightness.selects (encode (.setBrightness br)) = true
  exact beq_iff_eq.2 h

theorem init : Statement .init := beq_iff_eq.2 (by decide)

theorem shutdown : Statement .shutdown := beq_iff_eq.2 (by decide)

end Sys2Proof.Laws.EncodesOwnRow
end

