-- ==== Sys2Proof/Laws/Trace.lean ====
section
/-! SUPPORT. What a transfer, a sequence of frames and a command can do, each as a relation between the frames asked for, the
events appended and the outcome, with one inversion lemma that says every run is one of its cases. Later proofs are
inductions over these relations and never unfold a run. -/

namespace Sys2Proof.Machine

/-- The events and the result of a transfer whose calls are all answered (R170, R171, R172). -/
inductive XferTrace (P : Params) (p : Panel) (frame : List Byte) :
    List Event → Option (XferStep × IOError) → Prop where
  | selectFails (e : IOError) :
      XferTrace P p frame [.pinWrite (P.cs p) .low (.err e)] (some (.pinLow, e))
  | sent (spi release : Answer) (h1 : spi ≠ .never) (h2 : release ≠ .never) :
      XferTrace P p frame (xferEvents P p frame .ok spi release) (transferError spi.error release.error)

/-- The events of a transfer one of whose calls is never answered (R221). -/
inductive XferHung (P : Params) (p : Panel) (frame : List Byte) : List Event → Prop where
  | select : XferHung P p frame [.pinWrite (P.cs p) .low .never]
  | spi : XferHung P p frame [.pinWrite (P.cs p) .low .ok, .spiTransfer (P.conn p) frame .never]
  | release (spi : Answer) (h : spi ≠ .never) : XferHung P p frame (xferEvents P p frame .ok spi .never)

/-- Every transfer is one of these. -/
theorem xfer_trace (p : Panel) (frame : List Byte) (s : State) :
    (∃ evs n result, xfer p frame s = .done result (s.logged evs n) ∧ XferTrace s.params p frame evs result) ∨
    (∃ evs n, xfer p frame s = .hung (s.logged evs n) ∧ XferHung s.params p frame evs) := by
  obtain ⟨e, -, h⟩ | ⟨-, h⟩ | ⟨-, -, h⟩ | ⟨-, h1, -, h⟩ | ⟨-, h1, h2, h⟩ := xfer_cases p frame s
  · exact .inl ⟨_, _, _, h, .selectFails e⟩
  · exact .inr ⟨_, _, h, .select⟩
  · exact .inr ⟨_, _, h, .spi⟩
  · exact .inr ⟨_, _, h, .release _ h1⟩
  · exact .inl ⟨_, _, _, h, .sent _ _ h1 h2⟩

/-- The Sleep after a frame that has one (R178). -/
def settleEvents (P : Params) (job : Job) : List Event := if job.settle then [.sleep P.settleDelay] else []

/-- The failure a failed frame reports (R213). -/
def Job.failure (job : Job) (step : XferStep) (e : IOError) : Failure := ⟨job.panel, step, job.index, e⟩

/-- The events and the first failure of a sequence of frames whose calls are all answered (R152, R174, R176, R177). -/
inductive JobsTrace (P : Params) (abort : Bool) :
    List Job → Option Failure → List Event → Option Failure → Prop where
  | nil (first : Option Failure) : JobsTrace P abort [] first [] first
  | sent {job : Job} {rest : List Job} {first out : Option Failure} {evs evs' : List Event}
      (hx : XferTrace P job.panel job.bytes evs none) (hr : JobsTrace P abort rest first evs' out) :
      JobsTrace P abort (job :: rest) first (evs ++ settleEvents P job ++ evs') out
  | stopped {job : Job} {rest : List Job} {first : Option Failure} {evs : List Event} {xferStep : XferStep}
      {e : IOError} (ha : abort = true) (hx : XferTrace P job.panel job.bytes evs (some (xferStep, e))) :
      JobsTrace P abort (job :: rest) first evs (first.or (some (job.failure xferStep e)))
  | goesOn {job : Job} {rest : List Job} {first out : Option Failure} {evs evs' : List Event}
      {xferStep : XferStep} {e : IOError} (ha : abort = false)
      (hx : XferTrace P job.panel job.bytes evs (some (xferStep, e)))
      (hr : JobsTrace P abort rest (first.or (some (job.failure xferStep e))) evs' out) :
      JobsTrace P abort (job :: rest) first (evs ++ settleEvents P job ++ evs') out

/-- The events of a sequence of frames one of whose calls is never answered (R221). -/
inductive JobsHung (P : Params) (abort : Bool) : List Job → List Event → Prop where
  | here {job : Job} {rest : List Job} {evs : List Event} (hx : XferHung P job.panel job.bytes evs) :
      JobsHung P abort (job :: rest) evs
  | later {job : Job} {rest : List Job} {evs evs' : List Event} {result : Option (XferStep × IOError)}
      (ha : result = none ∨ abort = false) (hx : XferTrace P job.panel job.bytes evs result)
      (hr : JobsHung P abort rest evs') :
      JobsHung P abort (job :: rest) (evs ++ settleEvents P job ++ evs')

theorem settleEvents_eq (job : Job) (s : State) :
    (if job.settle then settle s else s) = s.logged (settleEvents s.params job) 0 := by
  by_cases h : job.settle <;> simp [h, settleEvents, settle_eq]

/-- Every sequence of frames is one of these. -/
theorem runJobs_trace (abort : Bool) (jobs : List Job) (first : Option Failure) (s : State) :
    (∃ evs n out, runJobs abort jobs first s = .done out (s.logged evs n) ∧
      JobsTrace s.params abort jobs first evs out) ∨
    (∃ evs n, runJobs abort jobs first s = .hung (s.logged evs n) ∧ JobsHung s.params abort jobs evs) := by
  induction jobs generalizing first s with
  | nil => exact .inl ⟨[], 0, first, by simp [runJobs], .nil first⟩
  | cons job rest ih =>
    rw [runJobs_cons]
    obtain ⟨evs, n, result, hx, ht⟩ | ⟨evs, n, hx, ht⟩ := xfer_trace job.panel job.bytes s
    · rw [hx, Run.bind_done]
      match result, ht with
      | none, ht =>
        simp only [settleEvents_eq]
        obtain ⟨evs', n', out, hr, hj⟩ | ⟨evs', n', hr, hj⟩ :=
          ih first ((s.logged evs n).logged (settleEvents s.params job) 0)
        · exact .inl ⟨_, _, out, by simpa using hr, .sent ht hj⟩
        · exact .inr ⟨_, _, by simpa using hr, .later (.inl rfl) ht hj⟩
      | some (xferStep, e), ht =>
        cases habort : abort with
        | true => exact .inl ⟨evs, n, _, rfl, .stopped rfl ht⟩
        | false =>
          simp only [settleEvents_eq]
          obtain ⟨evs', n', out, hr, hj⟩ | ⟨evs', n', hr, hj⟩ :=
            ih (first.or (some (job.failure xferStep e))) ((s.logged evs n).logged (settleEvents s.params job) 0)
          · rw [habort] at hr hj
            exact .inl ⟨_, _, out, by simpa [Job.failure] using hr, .goesOn rfl ht hj⟩
          · rw [habort] at hr hj
            exact .inr ⟨_, _, by simpa [Job.failure] using hr, .later (.inr rfl) ht hj⟩
    · exact .inr ⟨evs, n, by rw [hx]; rfl, .here ht⟩

/-! ### What the platform's answers decide, in the terms of Safety.lean -/

@[simp] theorem Platform.callsAt_advanceBy (pl : Platform) (m n : Nat) :
    (pl.advanceBy m).callsAt n = pl.callsAt (m + n) := by
  simp [Platform.callsAt, Nat.add_assoc]

@[simp] theorem Platform.eventsAt_advanceBy (pl : Platform) (P : Params) (p : Panel) (frame : List Byte) (m n : Nat) :
    (pl.advanceBy m).eventsAt P p frame n = pl.eventsAt P p frame (m + n) := by
  simp [Platform.eventsAt, Nat.add_assoc]

@[simp] theorem Platform.failureAt_advanceBy (pl : Platform) (m n : Nat) :
    (pl.advanceBy m).failureAt n = pl.failureAt (m + n) := by
  simp [Platform.failureAt, Nat.add_assoc]

@[simp] theorem sequenceEvents_advanceBy (P : Params) (pl : Platform) (jobs : List Job) (m n : Nat) :
    sequenceEvents P (pl.advanceBy m) jobs n = sequenceEvents P pl jobs (m + n) := by
  induction jobs generalizing n with
  | nil => rfl
  | cons job rest ih => simp [sequenceEvents, ih, Nat.add_assoc]

@[simp] theorem sequenceFailure_advanceBy (pl : Platform) (jobs : List Job) (m n : Nat) :
    sequenceFailure (pl.advanceBy m) jobs n = sequenceFailure pl jobs (m + n) := by
  induction jobs generalizing n with
  | nil => rfl
  | cons job rest ih => simp [sequenceFailure, ih, Nat.add_assoc]

/-- A transfer appends the events its answers decide and, where it returns, reports the failure they decide; where it does not
return, it has none to report (R170, R171, R221). -/
theorem xfer_at (p : Panel) (frame : List Byte) (s : State) :
    xfer p frame s = .done (s.platform.failureAt 0)
      (s.logged (s.platform.eventsAt s.params p frame 0) (s.platform.callsAt 0)) ∨
    (xfer p frame s = .hung (s.logged (s.platform.eventsAt s.params p frame 0) (s.platform.callsAt 0)) ∧
      s.platform.failureAt 0 = none) := by
  cases h0 : s.platform.answer 0 with
  | err e =>
    left
    rw [xfer_select_err p frame h0]
    simp [Platform.failureAt, Platform.eventsAt, Platform.callsAt, xferEvents, h0]
  | never =>
    right
    rw [xfer_select_never p frame h0]
    simp [Platform.failureAt, Platform.eventsAt, Platform.callsAt, xferEvents, h0]
  | ok =>
    cases h1 : s.platform.answer 1 with
    | never =>
      right
      rw [xfer_spi_never p frame h0 h1]
      simp [Platform.failureAt, Platform.eventsAt, Platform.callsAt, xferEvents, h0, h1]
    | ok | err e =>
      cases h2 : s.platform.answer 2 with
      | never =>
        right
        rw [xfer_release_never p frame h0 (by simp [h1]) h2]
        simp [Platform.failureAt, Platform.eventsAt, Platform.callsAt, xferEvents, h0, h1, h2]
      | ok | err e =>
        left
        rw [xfer_answered p frame h0 (by simp [h1]) (by simp [h2])]
        simp [Platform.failureAt, Platform.eventsAt, Platform.callsAt, xferEvents, transferError, Answer.error, h0, h1, h2]

/-- A sequence of frames that returns reports the failure its answers decide, under either policy (R213, R214). -/
theorem runJobs_failure {abort : Bool} {jobs : List Job} {first out : Option Failure} {s t : State}
    (h : runJobs abort jobs first s = .done out t) : out = first.or (sequenceFailure s.platform jobs 0) := by
  induction jobs generalizing first s with
  | nil => cases h; simp [sequenceFailure]
  | cons job rest ih =>
    rw [runJobs_cons] at h
    obtain hx | ⟨hx, -⟩ := xfer_at job.panel job.bytes s
    · rw [hx, Run.bind_done] at h
      cases hf : s.platform.failureAt 0 with
      | none =>
        rw [hf] at h
        simp only [settleEvents_eq] at h
        simpa [sequenceFailure, hf] using ih h
      | some pair =>
        obtain ⟨xferStep, e⟩ := pair
        rw [hf] at h
        cases abort with
        | true => cases h; simp [sequenceFailure, hf]
        | false =>
          simp only [settleEvents_eq] at h
          have := ih h
          cases first <;> simpa [sequenceFailure, hf] using this
    · rw [hx] at h
      cases h

/-- A sequence of frames that returns without an abort has appended the events its answers decide for every frame (R152, R176,
R177). -/
theorem runJobs_events {jobs : List Job} {first out : Option Failure} {s t : State}
    (h : runJobs false jobs first s = .done out t) :
    ∃ n, t = s.logged (sequenceEvents s.params s.platform jobs 0) n := by
  induction jobs generalizing first s with
  | nil => cases h; exact ⟨0, by simp [sequenceEvents]⟩
  | cons job rest ih =>
    rw [runJobs_cons] at h
    obtain hx | ⟨hx, -⟩ := xfer_at job.panel job.bytes s
    · rw [hx, Run.bind_done] at h
      have more : ∀ first', runJobs false rest first'
          (if job.settle then settle (s.logged (s.platform.eventsAt s.params job.panel job.bytes 0) (s.platform.callsAt 0))
            else s.logged (s.platform.eventsAt s.params job.panel job.bytes 0) (s.platform.callsAt 0)) = .done out t →
          ∃ n, t = s.logged (sequenceEvents s.params s.platform (job :: rest) 0) n := by
        intro first' h'
        rw [settleEvents_eq] at h'
        obtain ⟨n, hn⟩ := ih h'
        exact ⟨_, by simpa [sequenceEvents, settleEvents] using hn⟩
      cases hf : s.platform.failureAt 0 with
      | none => rw [hf] at h; exact more _ h
      | some pair => rw [hf] at h; exact more _ h
    · rw [hx] at h
      cases h

/-- The frames a panel command sends, its failure policy, and the state it sends them from (R152, R174, R176, R177). -/
inductive Plan (s : State) : Instr → Bool → List Job → State → Prop where
  | showPanels (h : s.phase = .ready) :
      Plan s .showPanels s.params.showShortCircuit (showJobs s.params (repack s.params.lut s.fb s.tb))
        { beginCommand s with tb := repack s.params.lut s.fb s.tb }
  | setBrightness (br : Byte) (h : s.phase = .ready) :
      Plan s (.setBrightness br) s.params.showShortCircuit (bothPanels false [frBright s.params (clampBrightness br)])
        (beginCommand s)
  | init :
      Plan s .init s.params.seqAbort (bothPanels true (initFrames s.params)) (construct (beginCommand s))
  | shutdown (h : s.phase = .ready) :
      Plan s .shutdown s.params.seqAbort (bothPanels false (shutdownFrames s.params)) (beginCommand s)

/-- PHASE after a panel command has sent its frames: READY after an INIT without a failure, else as it was (R30, R176). -/
def phaseAfter (i : Instr) (out : Option Failure) (phase : Phase) : Phase :=
  if i = .init ∧ out = none then .ready else phase

/-- SHOW in READY (R152). -/
theorem exec_showPanels_ready {s : State} (h : s.phase = .ready) :
    exec .showPanels s = .next
      ((runJobs s.params.showShortCircuit (showJobs s.params (repack s.params.lut s.fb s.tb)) none
        { beginCommand s with tb := repack s.params.lut s.fb s.tb }).bind fun first s1 =>
          .done (.ofFailure first) s1).close := by
  simp only [exec, execShow, runCommand]
  rw [whenReady_ready _ (by exact h)]
  rfl

/-- SET_BRIGHTNESS in READY (R174). -/
theorem exec_setBrightness_ready {s : State} (br : Byte) (h : s.phase = .ready) :
    exec (.setBrightness br) s = .next
      ((runJobs s.params.showShortCircuit (bothPanels false [frBright s.params (clampBrightness br)]) none
        (beginCommand s)).bind fun first s1 => .done (.ofFailure first) s1).close := by
  simp only [exec, execSetBrightness, runCommand]
  rw [whenReady_ready _ (by exact h)]
  rfl

/-- SHUTDOWN in READY (R177). -/
theorem exec_shutdown_ready {s : State} (h : s.phase = .ready) :
    exec .shutdown s = .next
      ((runJobs s.params.seqAbort (bothPanels false (shutdownFrames s.params)) none
        (beginCommand s)).bind fun first s1 => .done (.ofFailure first) s1).close := by
  simp only [exec, execShutdown, runCommand]
  rw [whenReady_ready _ (by exact h)]
  rfl

/-- INIT, in either phase (R176). -/
theorem exec_init_eq (s : State) :
    exec .init s = .next
      ((runJobs s.params.seqAbort (bothPanels true (initFrames s.params)) none
        (construct (beginCommand s))).bind fun first s1 =>
          match first with
          | none => .done .ok { s1 with phase := .ready }
          | some f => .done (.transportError f) s1).close := rfl

/-- The three commands that check PHASE, in UNINIT (R30, R211). -/
theorem exec_uninit {i : Instr} (hi : i = .showPanels ∨ (∃ br, i = .setBrightness br) ∨ i = .shutdown) {s : State}
    (h : s.phase = .uninit) : exec i s = .next (finish .notInitialised (beginCommand s)) := by
  obtain rfl | ⟨br, rfl⟩ | rfl := hi
  · simp only [exec, execShow, runCommand]
    rw [whenReady_uninit _ (by exact h)]
    rfl
  · simp only [exec, execSetBrightness, runCommand]
    rw [whenReady_uninit _ (by exact h)]
    rfl
  · simp only [exec, execShutdown, runCommand]
    rw [whenReady_uninit _ (by exact h)]
    rfl

/-- What a pixel command changes: FB or ROT, and how it completes; nothing else (R114 to R118, R122). -/
theorem exec_pixel {i : Instr} (hi : i.isPixel = true) (s : State) :
    ∃ (c : Completion) (fb : FrameBuffer) (rot : Rotation),
      exec i s = .next (finish c { beginCommand s with fb := fb, rot := rot }) ∧ c.code ≠ 2 := by
  cases i with
  | setPixel x y r g b =>
    simp only [exec, execSetPixel, runCommand, beginCommand_params, beginCommand_rot]
    cases pixelSlot s.params.coordDomain s.rot x y with
    | none => exact ⟨.ok, s.fb, s.rot, rfl, by decide⟩
    | some k => exact ⟨.ok, _, s.rot, rfl, by decide⟩
  | setAll r g b => exact ⟨.ok, _, s.rot, rfl, by decide⟩
  | clear => exact ⟨.ok, _, s.rot, rfl, by decide⟩
  | setRotation deg =>
    simp only [exec, execSetRotation, runCommand]
    cases rotationOfDegrees deg with
    | none => exact ⟨.configError, s.fb, s.rot, rfl, by decide⟩
    | some rot => exact ⟨.ok, s.fb, rot, rfl, by decide⟩
  | getShape => exact ⟨.shape _ _, s.fb, s.rot, rfl, by simp [Completion.code]⟩
  | showPanels => simp [Instr.isPixel] at hi
  | setBrightness br => simp [Instr.isPixel] at hi
  | init => simp [Instr.isPixel] at hi
  | shutdown => simp [Instr.isPixel] at hi

/-- Everything a panel command can do: NOT_INITIALISED, its frames sent with some outcome, or a hang (R211, R221). -/
theorem exec_panel {i : Instr} (hi : i.isPixel = false) (s : State) :
    (s.phase = .uninit ∧ i ≠ .init ∧ exec i s = .next (finish .notInitialised (beginCommand s))) ∨
    (∃ abort jobs s0 evs n out, Plan s i abort jobs s0 ∧ JobsTrace s.params abort jobs none evs out ∧
      exec i s = .next (finish (.ofFailure out)
        { s0.logged evs n with phase := phaseAfter i out s0.phase })) ∨
    (∃ abort jobs s0 evs n, Plan s i abort jobs s0 ∧ JobsHung s.params abort jobs evs ∧
      exec i s = .next (s0.logged evs n)) := by
  have run : ∀ {abort jobs s0}, Plan s i abort jobs s0 → i ≠ .init → s0.params = s.params →
      exec i s = .next ((runJobs abort jobs none s0).bind fun first s1 => .done (.ofFailure first) s1).close →
      (∃ abort jobs s0 evs n out, Plan s i abort jobs s0 ∧ JobsTrace s.params abort jobs none evs out ∧
        exec i s = .next (finish (.ofFailure out)
          { s0.logged evs n with phase := phaseAfter i out s0.phase })) ∨
      (∃ abort jobs s0 evs n, Plan s i abort jobs s0 ∧ JobsHung s.params abort jobs evs ∧
        exec i s = .next (s0.logged evs n)) := by
    intro abort jobs s0 hplan hne hp he
    rw [he]
    obtain ⟨evs, n, out, hr, ht⟩ | ⟨evs, n, hr, ht⟩ := runJobs_trace abort jobs none s0
    · exact .inl ⟨abort, jobs, s0, evs, n, out, hplan, hp ▸ ht, by rw [hr]; simp [phaseAfter, hne]; rfl⟩
    · exact .inr ⟨abort, jobs, s0, evs, n, hplan, hp ▸ ht, by rw [hr]; rfl⟩
  cases i with
  | setPixel x y r g b => simp [Instr.isPixel] at hi
  | setAll r g b => simp [Instr.isPixel] at hi
  | clear => simp [Instr.isPixel] at hi
  | setRotation deg => simp [Instr.isPixel] at hi
  | getShape => simp [Instr.isPixel] at hi
  | showPanels =>
    cases hp : s.phase with
    | uninit => exact .inl ⟨rfl, by simp, exec_uninit (.inl rfl) hp⟩
    | ready => exact .inr (run (.showPanels hp) (by simp) rfl (exec_showPanels_ready hp))
  | setBrightness br =>
    cases hp : s.phase with
    | uninit => exact .inl ⟨rfl, by simp, exec_uninit (.inr (.inl ⟨br, rfl⟩)) hp⟩
    | ready => exact .inr (run (.setBrightness br hp) (by simp) rfl (exec_setBrightness_ready br hp))
  | init =>
    right
    rw [exec_init_eq]
    obtain ⟨evs, n, out, hr, ht⟩ | ⟨evs, n, hr, ht⟩ := runJobs_trace s.params.seqAbort
      (bothPanels true (initFrames s.params)) none (construct (beginCommand s))
    · refine .inl ⟨_, _, _, evs, n, out, .init, ht, ?_⟩
      rw [hr]
      cases out <;> rfl
    · refine .inr ⟨_, _, _, evs, n, .init, ht, ?_⟩
      rw [hr]
      rfl
  | shutdown =>
    cases hp : s.phase with
    | uninit => exact .inl ⟨rfl, by simp, exec_uninit (.inr (.inr rfl)) hp⟩
    | ready => exact .inr (run (.shutdown hp) (by simp) rfl (exec_shutdown_ready hp))

end Sys2Proof.Machine
end

