-- ==== Sys2Proof/Tests/Slice0.lean ====
section
/-! SUPPORT. Tests. Each expected value comes from spec/: the vectors of spec/95_test_vectors.md (their table is named), or a
rule's own example. After them stand the witnesses: for each statement with hypotheses, a state and operands that meet all of
them together. -/

namespace Sys2Proof.Tests

open Sys2Proof.Machine

/-! ### The small states the tests start from -/

/-- Parameters with every open one fixed, so that a run can be evaluated. -/
def testParams : Params where
  coordDomain := .shape
  showShortCircuit := false
  seqAbort := true
  lut := spreadLut
  connA := ⟨1⟩
  connB := ⟨2⟩
  csA := ⟨3⟩
  csB := ⟨4⟩
  settleDelay := ⟨5⟩
  argsSoftReset := []
  argsBright := defaultArgsBright
  argsScrollOff := [0x00#8]
  argsSysOff := [0x00#8]
  argsSysOn := [0x03#8]
  argsComOn := [0xFF#8]
  argsComOff := [0x00#8]
  argsRowOn := [0xFF#8]
  argsRowOff := [0x00#8]
  wdPrefix := [0x00#8]
  spiClk := 600000
  cmdBits := 64
  coordBits := 8

/-- The machine after reset with those parameters and the platform's first answers. -/
def fresh (script : List Answer) : State :=
  { State.reset with params := testParams, platform := { script := script, drawn := 0 } }

/-- The same machine initialised. -/
def ready (script : List Answer) : State := { fresh script with phase := .ready }

/-- The same machine presented with one word. -/
def given (w : CmdWord) (s : State) : State := { s with cmds := [w] }

/-- The machine under another COORD_DOMAIN and rotation. -/
def turned (dom : CoordDomain) (rot : Rotation) : State :=
  { fresh [] with params := { testParams with coordDomain := dom }, rot := rot }

/-- The machine with SHOW_SHORT_CIRCUIT = true. -/
def shortCircuit (s : State) : State := { s with params := { s.params with showShortCircuit := true } }

/-- The machine with SEQ_ABORT = false. -/
def keepGoing (s : State) : State := { s with params := { s.params with seqAbort := false } }

/-- `n` answers Ok. -/
def oks (n : Nat) : List Answer := List.replicate n .ok

/-- An error the platform reports: the one value the open type is known to have. -/
def e1 : IOError := ⟨⟨0, .inl rfl⟩⟩

/-- The state of an outcome. -/
def stateOf (o : Host.Outcome State Fault Refusal) : State :=
  match o with
  | .next t => t
  | .fault _ => State.reset
  | .refused _ => State.reset

/-- The state a command leaves. -/
def after (i : Instr) (s : State) : State := stateOf (exec i s)

/-! ### Well-formedness: each check refuses a term (R82, R86) -/

theorem test_wf_x_high : (Instr.setPixel 128 0 0 0 0).wellFormed = false := by decide
theorem test_wf_x_low : (Instr.setPixel (-129) 0 0 0 0).wellFormed = false := by decide
theorem test_wf_y_high : (Instr.setPixel 0 128 0 0 0).wellFormed = false := by decide
theorem test_wf_y_low : (Instr.setPixel 0 (-129) 0 0 0).wellFormed = false := by decide
theorem test_wf_deg_high : (Instr.setRotation 2147483648).wellFormed = false := by decide
theorem test_wf_deg_low : (Instr.setRotation (-2147483649)).wellFormed = false := by decide

/-! ### Decoding: every constructor by a word written out from its format (R81, R83; table E) -/

theorem test_decode_setPixel :
    decode (0x01#8 ++ 0xFF#8 ++ 0x00#8 ++ 0x0000#16 ++ 0xFC#8 ++ 0x00#8 ++ 0x00#8) =
      .ok (.setPixel (-1) 0 252 0 0) := by decide +kernel
theorem test_decode_setPixel_fields :
    decode 0x0180_7F00_0011_2233#64 = .ok (.setPixel (-128) 127 0x11 0x22 0x33) := by decide +kernel
theorem test_decode_setAll : decode 0x0200_0000_0004_080C#64 = .ok (.setAll 4 8 12) := by decide +kernel
theorem test_decode_clear : decode (0x03#8 ++ 0#56) = .ok .clear := by decide +kernel
theorem test_decode_setRotation : decode 0x0400_0000_0000_010E#64 = .ok (.setRotation 270) := by decide +kernel
theorem test_decode_setRotation_negative :
    decode 0x0400_0000_FFFF_FFA6#64 = .ok (.setRotation (-90)) := by decide +kernel
theorem test_decode_getShape : decode (0x05#8 ++ 0#56) = .ok .getShape := by decide +kernel
theorem test_decode_showPanels : decode (0x06#8 ++ 0#56) = .ok .showPanels := by decide +kernel
theorem test_decode_setBrightness : decode 0x0700_0000_0000_00C8#64 = .ok (.setBrightness 200) := by decide +kernel
theorem test_decode_init : decode (0x08#8 ++ 0#56) = .ok .init := by decide +kernel
theorem test_decode_shutdown : decode (0x09#8 ++ 0#56) = .ok .shutdown := by decide +kernel
theorem test_decode_unassigned :
    decode 0x0000000000000000#64 = .error .unassignedOpcode ∧
    decode 0x0A00000000000000#64 = .error .unassignedOpcode ∧
    decode 0xFF00000000000000#64 = .error .unassignedOpcode := by decide +kernel
theorem test_decode_reserved :
    decode 0x0100000100000000#64 = .error .reservedBitSet ∧
    decode 0x0200000001000000#64 = .error .reservedBitSet ∧
    decode 0x0300000000000001#64 = .error .reservedBitSet ∧
    decode 0x0400000100000000#64 = .error .reservedBitSet ∧
    decode 0x0700000000000100#64 = .error .reservedBitSet ∧
    decode 0x01070000FFFFFF00#64 = .error .reservedBitSet := by decide +kernel
theorem test_decodeTableWord : decodeTableWord 64 0x0700000000000040 = some (.setBrightness 64) := by decide +kernel
theorem test_withFetchWord :
    nextCommand (State.reset.withFetchWord 64 0x0300000000000000) = some (0x0300000000000000#64, State.reset) := rfl

/-! ### Quantisation and addressing (tables Q and P) -/

theorem test_quantise :
    [0, 1, 3, 4, 7, 8, 127, 128, 129, 200, 251, 252, 255].map quantise =
      [0, 0, 0, 1, 1, 2, 31, 32, 32, 50, 62, 63, 63] := by decide +kernel
theorem test_remap_corners :
    [(Rotation.deg0, 16, 6), (.deg90, 0, 0), (.deg180, 0, 0), (.deg270, 0, 16)].map (fun (r, x, y) => remap r x y) =
      [118, 112, 118, 118] := by decide
theorem test_remap_slot55 :
    [(Rotation.deg0, 7, 6), (.deg90, 6, 9), (.deg180, 9, 0), (.deg270, 0, 7)].map (fun (r, x, y) => remap r x y) =
      [55, 55, 55, 55] := by decide

/-! ### The remapper's commands (table P, R114 to R118) -/

theorem test_setPixel_quarter_turn :
    readSlot (after (.setPixel 0 0 255 128 3) (turned .shape .deg90)).fb 112 = ⟨63, 32, 0⟩ := by decide +kernel
/-- The COORD_DOMAIN table of vector P, row by row: the slot written under SHAPE, FIXED and INDEX_ONLY. -/
theorem test_setPixel_domains :
    [(Rotation.deg0, (1 : Int), (-1 : Int)), (.deg0, 0, 7), (.deg0, 16, 7), (.deg0, -1, 0), (.deg90, 0, 16),
     (.deg90, 7, 0), (.deg90, 7, 1), (.deg180, 17, 0), (.deg180, -1, 6), (.deg270, 0, 7), (.deg270, 6, 16),
     (.deg270, 10, 0)].map
      (fun (rot, x, y) => (pixelSlot .shape rot x y, pixelSlot .fixed rot x y, pixelSlot .indexOnly rot x y)) =
    [(none, none, some 6), (none, none, some 7), (none, none, none), (none, none, none), (some 0, none, some 0),
     (none, none, none), (none, some 112, some 112), (none, none, none), (none, none, none), (some 55, none, some 55),
     (some 112, none, some 112), (none, none, none)] := by decide +kernel
theorem test_setAll :
    (readSlot (after (.setAll 255 3 4) (fresh [])).fb 0, readSlot (after (.setAll 255 3 4) (fresh [])).fb 118) =
      (⟨63, 0, 1⟩, ⟨63, 0, 1⟩) := by decide +kernel
theorem test_clear :
    readSlot (after .clear { fresh [] with fb := fillSlots ⟨1, 2, 3⟩ }).fb 118 = ⟨0, 0, 0⟩ := by decide +kernel
theorem test_setRotation_legal : (after (.setRotation 270) (turned .shape .deg180)).rot = .deg270 := by decide +kernel
theorem test_setRotation_rejected :
    ((after (.setRotation 450) (turned .shape .deg180)).rot, (after (.setRotation 450) (turned .shape .deg180)).status) =
      (.deg180, 0x00000001#32) := by decide +kernel
theorem test_getShape :
    ((after .getShape (turned .shape .deg270)).status, (after .getShape (fresh [])).status) =
      (0x11070000#32, 0x07110000#32) := by decide +kernel

/-! ### The panel commands (tables S, B, I, D, G) -/

/-- The failing calls of vector S's table with SHOW_SHORT_CIRCUIT = false: events and STATUS. -/
theorem test_show_failures :
    [[.err e1], [.ok, .err e1], [.ok, .ok, .err e1], oks 3 ++ [.err e1], oks 4 ++ [.err e1], oks 5 ++ [.err e1],
     [.ok, .err e1, .err e1]].map
      (fun script =>
        let t := after .showPanels (ready (script ++ oks 6))
        (t.ev.length, t.status, t.errIo)) =
    [(4, 0x02#32, some e1), (6, 0x22#32, some e1), (6, 0x42#32, some e1), (4, 0x12#32, some e1), (6, 0x32#32, some e1),
     (6, 0x52#32, some e1), (6, 0x22#32, some e1)] := by decide +kernel
/-- Vector X: the SPI error comes before the release error, whichever values the two have. -/
theorem test_xfer_spi_error_first (e e' : IOError) :
    xfer .a [0x80] (ready [.ok, .err e, .err e']) =
      .done (some (.spi, e)) ((ready [.ok, .err e, .err e']).logged
        [.pinWrite ⟨3⟩ .low .ok, .spiTransfer ⟨1⟩ [0x80] (.err e), .pinWrite ⟨3⟩ .high (.err e')] 3) := rfl
/-- R155: two pixels, their LUT offsets, and the frame panel B is sent. -/
theorem test_show_repack :
    let t := after .showPanels
      (after (.setPixel 16 6 0 255 0) (after (.setPixel 0 0 255 0 0) (ready (oks 6))))
    (t.tb, t.ev.length, t.status) = ([(0, 63#8), (355, 63#8)], 6, 0#32) := by decide +kernel
/-- The failing calls of vector S's table with SHOW_SHORT_CIRCUIT = true, for SET_BRIGHTNESS (vector B). -/
theorem test_setBrightness_short_circuit :
    [[.err e1], [.ok, .err e1], [.ok, .ok, .err e1], oks 3 ++ [.err e1]].map
      (fun script =>
        let t := after (.setBrightness 64) (shortCircuit (ready (script ++ oks 6)))
        (t.ev.length, t.status)) =
    [(1, 0x02#32), (3, 0x22#32), (3, 0x42#32), (4, 0x12#32)] := by decide +kernel
/-- R174's own example. -/
theorem test_setBrightness :
    (after (.setBrightness 200) (ready (oks 6))).ev =
      [.pinWrite ⟨3⟩ .low .ok, .spiTransfer ⟨1⟩ [0x37, 0x3F] .ok, .pinWrite ⟨3⟩ .high .ok,
       .pinWrite ⟨4⟩ .low .ok, .spiTransfer ⟨2⟩ [0x37, 0x3F] .ok, .pinWrite ⟨4⟩ .high .ok] := by decide +kernel
/-- Vector I: all Ok, from reset. -/
theorem test_init :
    let t := after .init { fresh (oks 48) with rot := .deg270 }
    (t.ev.length, t.status, t.phase, t.rot, t.busy) = (50, 0#32, .ready, .deg0, false) := by decide +kernel
/-- Vector I's failure table: SEQ_ABORT, the answers, then events, STATUS and PHASE. -/
theorem test_init_failures :
    [(true, [.ok, .err e1]), (true, oks 39 ++ [.err e1]), (false, oks 39 ++ [.err e1]), (true, oks 23 ++ [.err e1])].map
      (fun (abort, script) =>
        let s := fresh (script ++ oks 48)
        let t := after .init (if abort then s else keepGoing s)
        (t.ev.length, t.status, t.phase)) =
    [(3, 0x22#32, .uninit), (42, 0x512#32, .uninit), (48, 0x512#32, .uninit), (25, 0x742#32, .uninit)] := by
  decide +kernel
/-- Vector D. -/
theorem test_shutdown :
    let s := ready (oks 4 ++ [.err e1] ++ oks 18)
    [after .shutdown (ready (oks 18)), after .shutdown s, after .shutdown (keepGoing s)].map
      (fun t => (t.ev.length, t.status, t.phase)) =
    [(18, 0#32, .ready), (6, 0x122#32, .ready), (18, 0x122#32, .ready)] := by decide +kernel
/-- Vector G: ILLEGAL_COMMAND comes before NOT_INITIALISED, which the three panel commands raise in UNINIT. -/
theorem test_codes_in_uninit :
    [stateOf (step (given 0x0600000000000001#64 (fresh []))), after .showPanels (fresh []),
     after (.setBrightness 9) (fresh []), after .shutdown (fresh []), after (.setRotation 45) (fresh [])].map
      (fun t => (t.status, t.ev.length, t.busy)) =
    [(3#32, 0, false), (4#32, 0, false), (4#32, 0, false), (4#32, 0, false), (1#32, 0, false)] := by decide +kernel
/-- Vector X: an SPI transfer that is never answered; STATUS is still the previous command's. -/
theorem test_hang :
    let t := after .showPanels { ready [.ok, .never] with status := 1 }
    (t.ev.length, t.busy, t.status, hostRead t) = (2, true, 1#32, none) := by decide +kernel

/-! ### The assembler (R86, table E) -/

theorem test_assemble :
    assemble ["setpixel -1, 0, 0xFC, 0, 0 ; comment".toList, "  ".toList, "setall #04080C".toList, "unset 6, 16".toList,
      "flush".toList, "setrot -90".toList] =
    .ok [0x01FF000000FC0000#64, 0x020000000004080C#64, 0x0106100000000000#64, 0x0600000000000000#64,
      0x04000000FFFFFFA6#64] := by decide +kernel
theorem test_assemble_refuses :
    (assemble ["setbright 256".toList], assemble ["setpixel 128, 0, 0, 0, 0".toList], assemble ["setrot 2147483648".toList]) =
      (.error .outOfField, .error .outOfField, .error .outOfField) := by decide +kernel

/-! ### Witnesses: the hypotheses of each statement are met together -/

/-- The state a command leaves is the one `exec` answers. -/
theorem exec_after (i : Instr) (s : State) : exec i s = .next (after i s) := by cases i <;> rfl

/-- A legal state in READY, whatever the platform answers. -/
theorem ready_legal (script : List Answer) : LegalState (ready script) where
  params := ⟨spreadLut_distinct, by show (600000 : Nat) ≤ 600000; decide, rfl, rfl⟩
  tb := ⟨by show Memory.wf []; decide, fun _ => by show (0#8).toNat ≤ 63; decide, fun _ _ => rfl⟩
  status := by show LegalStatus 0#32; unfold LegalStatus; decide
  errIo := by show (none : Option IOError).isSome = true ↔ statusCode 0#32 = 2; decide
  frames := fun e he => absurd he List.not_mem_nil
  framed := by show Framing.idle ≠ .broken; decide
  betweenCommands := fun _ => rfl

/-- A step with the word of INIT carries INIT out. -/
theorem step_init (script : List Answer) :
    step (given 0x0800000000000000#64 (ready script)) = .next (after .init (ready script)) := rfl

theorem test_meets_DecodeOfEncode :
    (Instr.setPixel (-128) 127 255 0 255).wellFormed = true ∧ (Instr.setRotation (-2147483648)).wellFormed = true ∧
    (Instr.setRotation 2147483647).wellFormed = true := by decide
theorem test_meets_EncodeOfDecode : decode 0x0180_7F00_00FF_00FF#64 = .ok (.setPixel (-128) 127 255 0 255) := by
  decide +kernel
theorem test_meets_AtMostOneRowMatches : Row.setAll.selects 0x0200000000FFFFFF#64 = true := by decide
/-- The three ways a word is illegal, each at a boundary value: OP 0x00, OP 0x0A and 0xFF, a reserved bit. -/
theorem test_meets_IllegalWordCompletes :
    ((given 0x00FFFFFFFFFFFFFF#64 (fresh [])).busy = false ∧
      (given 0x00FFFFFFFFFFFFFF#64 (fresh [])).cmds = 0x00FFFFFFFFFFFFFF#64 :: [] ∧ opField 0x00FFFFFFFFFFFFFF#64 = 0x00#8) ∧
    (0x0A ≤ (opField 0x0A00000000000000#64).toNat ∧ 0x0A ≤ (opField 0xFF00000000000000#64).toNat) ∧
    (opField 0x0400000100000000#64 = Row.setRotation.opcode ∧
      0x0400000100000000#64 &&& Row.setRotation.mask ≠ Row.setRotation.pattern) := by decide +kernel
theorem test_meets_StepRunsDecodedCommand :
    (given 0x0800000000000000#64 (fresh [])).busy = false ∧
    (given 0x0800000000000000#64 (fresh [])).cmds = 0x0800000000000000#64 :: [] ∧
    decode 0x0800000000000000#64 = .ok .init := by decide +kernel
theorem test_meets_BusyAcceptsNothing : (after .init (fresh [.never])).busy = true := by decide +kernel
theorem test_meets_IdleStepWaits : State.reset.cmds = [] := rfl
/-- Accepted coordinates at the corners of both footprints, and the last slot. -/
theorem test_meets_RemapIsBijection :
    accept .shape .deg0 16 6 = true ∧ accept .shape .deg180 0 0 = true ∧ accept .shape .deg90 6 16 = true ∧
    accept .shape .deg270 0 0 = true ∧ inBounds 0 = true ∧ inBounds 118 = true ∧
    remap .deg0 16 6 = remap .deg0 16 6 := by decide
theorem test_meets_InverseMapsReachTheirSlot :
    (0 : Int) ≤ 0 ∧ (16 : Int) < 17 ∧ (0 : Int) ≤ 16 ∧ (6 : Int) < 7 ∧ (0 : Int) ≤ 6 := by decide
theorem test_meets_RemapRange : (-128 : Int) ≤ -128 ∧ (-128 : Int) ≤ 127 ∧ (127 : Int) ≤ 127 := by decide
/-- A written pixel, one dropped by the coordinates, one dropped by the index alone. -/
theorem test_meets_SetPixelCompletes :
    (accept (fresh []).params.coordDomain (fresh []).rot 16 6 = true ∧ inBounds (remap (fresh []).rot 16 6) = true) ∧
    ¬ (accept (fresh []).params.coordDomain (fresh []).rot 17 0 = true ∧
      inBounds (remap (fresh []).rot 17 0) = true) ∧
    (accept (turned .fixed .deg90).params.coordDomain (turned .fixed .deg90).rot 7 0 = true ∧
      inBounds (remap (turned .fixed .deg90).rot 7 0) = false) := by decide +kernel
theorem test_meets_SetPixelReadsBack :
    (turned .shape .deg90).params.coordDomain = .shape ∧ accept .shape (turned .shape .deg90).rot 6 16 = true ∧
    exec (.setPixel 6 16 4 8 12) (turned .shape .deg90) =
      .next (after (.setPixel 6 16 4 8 12) (turned .shape .deg90)) :=
  ⟨rfl, by decide +kernel, exec_after _ _⟩
theorem test_meets_SetPixelWritesAtMostOneSlot :
    exec (.setPixel 7 1 4 8 12) (turned .indexOnly .deg90) =
      .next (after (.setPixel 7 1 4 8 12) (turned .indexOnly .deg90)) ∧
    pixelSlot (turned .indexOnly .deg90).params.coordDomain (turned .indexOnly .deg90).rot 7 1 = some 112 ∧
    pixelSlot (turned .indexOnly .deg90).params.coordDomain (turned .indexOnly .deg90).rot 7 1 ≠ some 111 :=
  ⟨exec_after _ _, rfl, by decide⟩
theorem test_meets_SetRotationCompletes : (-90 : Int) ≠ 0 ∧ (-90 : Int) ≠ 90 ∧ (-90 : Int) ≠ 180 ∧ (-90 : Int) ≠ 270 := by
  decide
theorem test_meets_PixelCommandsCompleteWithoutIo : Instr.getShape.isPixel = true := rfl
theorem test_meets_ShowCompletes : (ready (oks 6)).phase = .ready ∧ (ready (oks 6)).platform.AllOk 6 := by decide +kernel
theorem test_meets_ShowRepacksTheFrameBuffer :
    LegalState (ready [.err e1]) ∧ (ready [.err e1]).phase = .ready ∧
    exec .showPanels (ready [.err e1]) = .next (after .showPanels (ready [.err e1])) :=
  ⟨ready_legal _, rfl, exec_after _ _⟩
/-- The machine after one SHOW, with the platform answering as before it. -/
def shown : State := { after .showPanels (ready (oks 6)) with platform := (ready (oks 6)).platform }
/-- A second SHOW right after the first. -/
theorem test_meets_ShowIsIdempotent :
    LegalState (ready (oks 6)) ∧ (ready (oks 6)).phase = .ready ∧
    exec .showPanels (ready (oks 6)) = .next (after .showPanels (ready (oks 6))) ∧
    shown.params = (ready (oks 6)).params ∧ shown.fb = (ready (oks 6)).fb ∧
    shown.tb = (after .showPanels (ready (oks 6))).tb ∧ shown.phase = .ready ∧
    exec .showPanels shown = .next (after .showPanels shown) ∧
    ∀ k, k < 6 → shown.platform.answer k = (ready (oks 6)).platform.answer k :=
  ⟨ready_legal _, rfl, exec_after _ _, by decide +kernel, by decide +kernel, by decide +kernel,
    by decide +kernel, exec_after _ _, fun _ _ => rfl⟩
/-- The two policies, for both commands, with each step of panel A's transfer failing. -/
theorem test_meets_ShortCircuitDecidesPanelB :
    ((ready (.err e1 :: oks 3)).phase = .ready ∧ (ready (.err e1 :: oks 3)).platform.failureAt 0 = some (.pinLow, e1) ∧
      exec .showPanels (ready (.err e1 :: oks 3)) = .next (after .showPanels (ready (.err e1 :: oks 3))) ∧
      (ready (.err e1 :: oks 3)).params.showShortCircuit = false ∧
      (after .showPanels (ready (.err e1 :: oks 3))).busy = false) ∧
    (ready [.ok, .err e1, .ok]).platform.failureAt 0 = some (.spi, e1) ∧
    (shortCircuit (ready [.ok, .ok, .err e1])).platform.failureAt 0 = some (.pinHigh, e1) ∧
    exec (.setBrightness 1) (shortCircuit (ready [.ok, .ok, .err e1])) =
      .next (after (.setBrightness 1) (shortCircuit (ready [.ok, .ok, .err e1]))) ∧
    (shortCircuit (ready [.ok, .ok, .err e1])).params.showShortCircuit = true :=
  ⟨⟨rfl, rfl, exec_after _ _, rfl, by decide +kernel⟩, rfl, rfl, exec_after _ _, rfl⟩
theorem test_meets_SetBrightnessCompletes :
    (ready (oks 6)).phase = .ready ∧ (ready (oks 6)).platform.AllOk 6 ∧ (ready (oks 6)).params.argsBright = defaultArgsBright := by
  decide +kernel
theorem test_meets_InitCompletes :
    (fresh (oks 48)).platform.AllOk 48 ∧ (fresh (oks 48)).params.argsBright = defaultArgsBright := by decide +kernel
theorem test_meets_ShutdownCompletes :
    (ready (oks 18)).phase = .ready ∧ (ready (oks 18)).platform.AllOk 18 := by decide +kernel
theorem test_meets_PanelCommandsNeedInit : (fresh []).phase = .uninit := rfl
/-- INIT that ends READY, one that fails and one that hangs. -/
theorem test_meets_InitReadyExactlyOnOk :
    exec .init (fresh (oks 48)) = .next (after .init (fresh (oks 48))) ∧ (after .init (fresh (oks 48))).phase = .ready ∧
    exec .init (fresh [.err e1]) = .next (after .init (fresh [.err e1])) ∧
    exec .init (fresh [.never]) = .next (after .init (fresh [.never])) :=
  ⟨exec_after _ _, by decide +kernel, exec_after _ _, exec_after _ _⟩
theorem test_meets_InitKeepsConstructionState :
    exec .init (ready [.err e1]) = .next (after .init (ready [.err e1])) :=
  exec_after _ _
/-- An INIT whose first SPI transfer fails, so that its release follows and nothing else; and one whose first select fails. -/
theorem test_meets_SeqAbortStopsAtFirstFailure :
    let s := fresh [.ok, .err e1, .ok]
    let s' := fresh [.err e1]
    (s.params.seqAbort = true ∧ exec .init s = .next (after .init s) ∧
      (after .init s).ev = s.ev ++ [.pinWrite ⟨3⟩ .low .ok] ++ .spiTransfer ⟨1⟩ [0xCC] (.err e1) ::
        [.pinWrite ⟨3⟩ .high .ok]) ∧
    s'.params.seqAbort = true ∧ exec .init s' = .next (after .init s') ∧
    (after .init s').ev = s'.ev ++ [] ++ .pinWrite ⟨3⟩ .low (.err e1) :: [] :=
  ⟨⟨rfl, exec_after _ _, by decide +kernel⟩, rfl, exec_after _ _, by decide +kernel⟩
theorem test_meets_SeqContinueSendsEveryFrame :
    let s := keepGoing (ready (.err e1 :: oks 47))
    s.params.seqAbort = false ∧ exec .init s = .next (after .init s) ∧ (after .init s).busy = false ∧
    s.phase = .ready ∧ exec .shutdown s = .next (after .shutdown s) ∧ (after .shutdown s).busy = false :=
  ⟨rfl, exec_after _ _, by decide +kernel, rfl, exec_after _ _, by decide +kernel⟩
theorem test_meets_PanelCommandsFrame :
    exec .showPanels (ready (oks 6)) = .next (after .showPanels (ready (oks 6))) ∧ (ready (oks 6)).tb.wf ∧
    400 ∉ (ready (oks 6)).params.lut.offsets ∧ Instr.shutdown ≠ .showPanels ∧
    exec .shutdown (ready (oks 18)) = .next (after .shutdown (ready (oks 18))) :=
  ⟨exec_after _ _, by decide, by show 400 ∉ spreadLut.offsets; rw [spreadLut_offsets]; decide, by decide, exec_after _ _⟩
theorem test_meets_PanelABeforePanelB :
    exec (.setBrightness 5) (ready (oks 6)) = .next (after (.setBrightness 5) (ready (oks 6))) :=
  exec_after _ _
/-- A frame is sent, so the inner hypothesis of the statement is met too. -/
theorem test_meets_OnlyTheTenFrameForms :
    exec (.setBrightness 5) (ready (oks 6)) = .next (after (.setBrightness 5) (ready (oks 6))) ∧
    Event.spiTransfer ⟨1⟩ [0x37, 0x05] .ok ∈ (after (.setBrightness 5) (ready (oks 6))).ev :=
  ⟨exec_after _ _, by decide +kernel⟩
theorem test_meets_FirstFailureIsReported :
    exec .showPanels (ready ([.ok, .err e1, .err e1] ++ oks 3)) =
      .next (after .showPanels (ready ([.ok, .err e1, .err e1] ++ oks 3))) ∧
    (after .showPanels (ready ([.ok, .err e1, .err e1] ++ oks 3))).busy = false :=
  ⟨exec_after _ _, by decide +kernel⟩
theorem test_meets_SpiErrorBeforeReleaseError :
    let s := ready [.ok, .err e1, .err e1]
    s.platform.answer 0 = .ok ∧ s.platform.answer 1 = .err e1 ∧ s.platform.answer 2 = .err e1 ∧ s.phase = .ready ∧
    exec .shutdown s = .next (after .shutdown s) ∧ (after .shutdown s).busy = false ∧
    exec .init s = .next (after .init s) ∧ (after .init s).busy = false :=
  ⟨rfl, rfl, rfl, rfl, exec_after _ _, by decide +kernel, exec_after _ _, by decide +kernel⟩
/-- INIT, SHUTDOWN and SHOW, at panel A's first frame and panel B's last, in different steps. -/
theorem test_meets_SequencesReportTheFailingFrame :
    let s := fresh (oks 45 ++ [.ok, .ok, .err e1])
    let s' := ready (oks 15 ++ [.ok, .err e1, .ok])
    let s'' := ready (oks 3 ++ [.err e1])
    (7 < 8 ∧ s.platform.AllOk ((if Panel.b = .b then 24 else 0) + 3 * 7) ∧
      s.platform.failureAt ((if Panel.b = .b then 24 else 0) + 3 * 7) = some (.pinHigh, e1) ∧
      exec .init s = .next (after .init s) ∧ (s.params.seqAbort = true ∨ (after .init s).busy = false)) ∧
    (2 < 3 ∧ s'.phase = .ready ∧ s'.platform.AllOk ((if Panel.b = .b then 9 else 0) + 3 * 2) ∧
      s'.platform.failureAt ((if Panel.b = .b then 9 else 0) + 3 * 2) = some (.spi, e1) ∧
      exec .shutdown s' = .next (after .shutdown s') ∧ (s'.params.seqAbort = true ∨ (after .shutdown s').busy = false)) ∧
    (s''.phase = .ready ∧ s''.platform.AllOk (if Panel.b = .b then 3 else 0) ∧
      s''.platform.failureAt (if Panel.b = .b then 3 else 0) = some (.pinLow, e1) ∧
      exec .showPanels s'' = .next (after .showPanels s'') ∧ (after .showPanels s'').busy = false) :=
  ⟨⟨by decide, by decide +kernel, by decide +kernel, exec_after _ _, .inl rfl⟩,
    ⟨by decide, rfl, by decide +kernel, by decide +kernel, exec_after _ _, .inl rfl⟩,
    ⟨rfl, by decide +kernel, by decide +kernel, exec_after _ _, by decide +kernel⟩⟩
theorem test_meets_HangsExactlyOnAnUnansweredCall :
    exec (.setBrightness 5) (ready [.never]) = .next (after (.setBrightness 5) (ready [.never])) := exec_after _ _
/-- A transfer whose SPI call fails, and one whose select fails. -/
theorem test_meets_TransferReleasesThePin :
    (∃ r t, xfer .b [0x80] (ready [.ok, .err e1, .ok]) = .done r t ∧ (ready [.ok, .err e1, .ok]).platform.answer 0 = .ok) ∧
    ∃ r t, xfer .b [0x80] (ready [.err e1]) = .done r t ∧ (ready [.err e1]).platform.answer 0 = .err e1 :=
  ⟨⟨_, _, rfl, rfl⟩, ⟨_, _, rfl, rfl⟩⟩
theorem test_meets_HungCommandIsStuck :
    exec .shutdown (ready [.ok, .never]) = .next (after .shutdown (ready [.ok, .never])) ∧
    (after .shutdown (ready [.ok, .never])).busy = true :=
  ⟨exec_after _ _, by decide +kernel⟩
theorem test_meets_AnsweredCommandsComplete : (fresh (.err e1 :: oks 47)).platform.AllAnswered 48 := by decide +kernel
theorem test_meets_CompletionAcceptsTheNextCommand :
    let s := given (encode (.setRotation (-90))) (ready (.err e1 :: oks 3))
    (Instr.setRotation (-90)).wellFormed = true ∧ s.cmds = encode (.setRotation (-90)) :: [] ∧
    exec .showPanels s = .next (after .showPanels s) ∧ (after .showPanels s).busy = false :=
  ⟨rfl, rfl, exec_after _ _, by decide +kernel⟩
/-- A step that carries INIT out from a legal state. -/
theorem test_meets_StepKeepsLegalStates :
    let s := given 0x0800000000000000#64 (ready (oks 48))
    LegalState s ∧ step s = .next (after .init (ready (oks 48))) :=
  have h := ready_legal (oks 48)
  ⟨⟨h.params, h.tb, h.status, h.errIo, h.frames, h.framed, h.betweenCommands⟩, step_init _⟩
theorem test_meets_TraceIsAppendOnly :
    step (given 0x0800000000000000#64 (ready [])) = .next (after .init (ready [])) := step_init _
/-- FB, ROT, TB and PHASE each change in some command. -/
theorem test_meets_OnlyTheNamedCommandsWrite :
    (after (.setAll 255 0 0) (fresh [])).fb ≠ (fresh []).fb ∧ (after (.setRotation 90) (fresh [])).rot ≠ (fresh []).rot ∧
    (after .showPanels { ready (oks 6) with fb := writeSlot (fresh []).fb 0 ⟨1, 0, 0⟩ }).tb ≠ (ready (oks 6)).tb ∧
    (after .init (fresh (oks 48))).phase ≠ (fresh (oks 48)).phase := by decide +kernel
theorem test_meets_NoReadbackOfFrameBuffer :
    Host.Core.run Sys2Proof.core 1 (given 0x0800000000000000#64 (ready (oks 48))) =
      .next (after .init (ready (oks 48))) := by
  show (match step (given 0x0800000000000000#64 (ready (oks 48))) with
    | .next s' => Host.Core.run Sys2Proof.core 0 s'
    | .fault r => .fault r
    | .refused r => .refused r) = _
  rw [step_init]
  rfl
theorem test_meets_OnlyShowSendsTheFrameBuffer :
    Instr.init ≠ .showPanels ∧ exec .init (fresh (oks 48)) = .next (after .init (fresh (oks 48))) :=
  ⟨by decide, exec_after _ _⟩
theorem test_meets_AssembledLinesDecode :
    assembleLine "setpixel -128, 127, 255, 0, 255".toList = .ok (some (.setPixel (-128) 127 255 0 255)) := by
  decide +kernel

end Sys2Proof.Tests
end

section
namespace Sys2Proof.Machine

/-- The reset state takes the reset parameters (R9, log 3). -/
theorem reset_params : State.reset.params = resetParams := rfl

/-- Settles O54: the parameters R9 fixes are the literals of `resetParams`, ARGS_BRIGHT is its default table, and the open
LUT and SPI_CLK are legal because the reset parameters are well formed. -/
theorem defaultParameters : Obligations.DefaultParameters := by
  unfold Obligations.DefaultParameters
  rw [reset_params]
  obtain ⟨hlut, hclk, hcmd, hcoord⟩ := resetParams_wf
  have hargs : ∀ c : Fin 64, resetParams.argsBright[c] = [BitVec.ofNat 8 c.val] :=
    fun c => defaultArgsBright_get c c.isLt
  exact ⟨rfl, rfl, rfl, hargs, hcmd, hcoord, hlut, hclk⟩

end Sys2Proof.Machine
end

section
/-! ### The step's equations (R34, R84, R216, R246) -/

namespace Sys2Proof.Machine

/-- A stuck block stays as it is (R221, R246). -/
theorem step_of_busy {s : State} (h : s.busy = true) : step s = .next s := by
  simp [step, nextCommand, h]

/-- A block with no word to accept waits (R240). -/
theorem step_of_idle {s : State} (h : s.cmds = []) : step s = .next s := by
  cases hb : s.busy <;> simp [step, nextCommand, h, hb]

/-- A word that decodes is carried out without it (R34, R216). -/
theorem step_of_decode {s : State} {w : CmdWord} {rest : List CmdWord} {i : Instr} (hb : s.busy = false)
    (hc : s.cmds = w :: rest) (hd : decode w = .ok i) : step s = exec i { s with cmds := rest } := by
  simp [step, nextCommand, hb, hc, hd]

/-- Any other word completes with ILLEGAL_COMMAND (R84). -/
theorem step_of_illegal {s : State} {w : CmdWord} {rest : List CmdWord} {why : IllegalWord} (hb : s.busy = false)
    (hc : s.cmds = w :: rest) (hd : decode w = .error why) :
    step s = .next (finish .illegalCommand (beginCommand { s with cmds := rest })) := by
  simp [step, nextCommand, hb, hc, hd, execIllegal, runCommand]

/-- Everything a step can do: nothing, or the next word taken and carried out, or refused. -/
theorem step_cases (s : State) :
    step s = .next s ∨
    ∃ w rest, s.busy = false ∧ s.cmds = w :: rest ∧
      ((∃ i, decode w = .ok i ∧ step s = exec i { s with cmds := rest }) ∨
        step s = .next (finish .illegalCommand (beginCommand { s with cmds := rest }))) := by
  cases hb : s.busy with
  | true => exact .inl (step_of_busy hb)
  | false =>
    cases hc : s.cmds with
    | nil => exact .inl (step_of_idle hc)
    | cons w rest =>
      refine .inr ⟨w, rest, rfl, rfl, ?_⟩
      cases hd : decode w with
      | ok i => exact .inl ⟨i, rfl, step_of_decode hb hc hd⟩
      | error why => exact .inr (step_of_illegal hb hc hd)

/-- Settles O6: the step's equation for a word that decodes. -/
theorem stepRunsDecodedCommand : Obligations.StepRunsDecodedCommand :=
  fun _ _ _ _ hb hc hd => step_of_decode hb hc hd

/-- Settles O7: presenting a word leaves BUSY at 1, so the block is stuck and the host reads nothing. -/
theorem busyAcceptsNothing : Obligations.BusyAcceptsNothing := by
  intro s w h
  have hb : (present w s).busy = true := h
  exact ⟨step_of_busy hb, by simp [hostRead, h]⟩

/-- Settles O30: each of the three commands finishes at its PHASE check. -/
theorem panelCommandsNeedInit : Obligations.PanelCommandsNeedInit := by
  intro s br h
  have hfin : finish .notInitialised (beginCommand s) = { s with status := 4#32, errIo := none, busy := false } := by
    simp [finish, beginCommand]
  rw [← hfin]
  exact ⟨exec_uninit (.inl rfl) h, exec_uninit (.inr (.inl ⟨br, rfl⟩)) h, exec_uninit (.inr (.inr rfl)) h⟩

end Sys2Proof.Machine
end

section
/-! ### What each command writes (R114 to R118, R176, R23 to R30) -/

namespace Sys2Proof.Machine

/-- The completion, FB and ROT of a pixel command (R114 to R118). -/
inductive PixelEffect (s : State) : Instr → Completion → FrameBuffer → Rotation → Prop where
  | wrote {x y : Int} {k : Nat} (r g b : Byte) (h : pixelSlot s.params.coordDomain s.rot x y = some k) :
      PixelEffect s (.setPixel x y r g b) .ok (writeSlot s.fb k (quantiseRgb r g b)) s.rot
  | dropped {x y : Int} (r g b : Byte) (h : pixelSlot s.params.coordDomain s.rot x y = none) :
      PixelEffect s (.setPixel x y r g b) .ok s.fb s.rot
  | setAll (r g b : Byte) : PixelEffect s (.setAll r g b) .ok (fillSlots (quantiseRgb r g b)) s.rot
  | clear : PixelEffect s .clear .ok (fillSlots Rgb.black) s.rot
  | rotated {deg : Int} {rot : Rotation} (h : rotationOfDegrees deg = some rot) :
      PixelEffect s (.setRotation deg) .ok s.fb rot
  | notRotated {deg : Int} (h : rotationOfDegrees deg = none) :
      PixelEffect s (.setRotation deg) .configError s.fb s.rot
  | getShape : PixelEffect s .getShape (.shape (shape s.rot).1 (shape s.rot).2) s.fb s.rot

/-- Every pixel command has one of these effects, and no other. -/
theorem exec_pixelEffect {i : Instr} (hi : i.isPixel = true) (s : State) :
    ∃ c fb rot, PixelEffect s i c fb rot ∧
      exec i s = .next (finish c { beginCommand s with fb := fb, rot := rot }) := by
  cases i with
  | setPixel x y r g b =>
    simp only [exec, execSetPixel, runCommand, beginCommand_params, beginCommand_rot]
    cases h : pixelSlot s.params.coordDomain s.rot x y with
    | none => exact ⟨_, _, _, .dropped r g b h, rfl⟩
    | some k => exact ⟨_, _, _, .wrote r g b h, rfl⟩
  | setAll r g b => exact ⟨_, _, _, .setAll r g b, rfl⟩
  | clear => exact ⟨_, _, _, .clear, rfl⟩
  | setRotation deg =>
    simp only [exec, execSetRotation, runCommand]
    cases h : rotationOfDegrees deg with
    | none => exact ⟨_, _, _, .notRotated h, rfl⟩
    | some rot => exact ⟨_, _, _, .rotated h, rfl⟩
  | getShape => exact ⟨_, _, _, .getShape, rfl⟩
  | showPanels | setBrightness br | init | shutdown => cases hi

/-- A degree operand with a rotation is one of the four legal ones (R117). -/
theorem legalDegrees_of_rotation {deg : Int} {rot : Rotation} (h : rotationOfDegrees deg = some rot) :
    deg = 0 ∨ deg = 90 ∨ deg = 180 ∨ deg = 270 := by
  by_contra hne
  simp only [not_or] at hne
  simp [rotationOfDegrees, hne] at h

/-- A panel command sends its frames under the parameters and behind the trace it began with. -/
theorem Plan.params_ev {s s0 : State} {i : Instr} {abort : Bool} {jobs : List Job} (h : Plan s i abort jobs s0) :
    s0.params = s.params ∧ s0.ev = s.ev := by
  cases h <;> exact ⟨rfl, rfl⟩

/-- BUSY is 1 while a panel command sends its frames (R34). -/
theorem Plan.busy {s s0 : State} {i : Instr} {abort : Bool} {jobs : List Job} (h : Plan s i abort jobs s0) :
    s0.busy = true := by
  cases h <;> rfl

/-- Before its frames, a panel command other than INIT has written TB alone, and only SHOW has (R152, R174, R177). -/
theorem Plan.unchanged {s s0 : State} {i : Instr} {abort : Bool} {jobs : List Job} (h : Plan s i abort jobs s0)
    (hi : i ≠ .init) :
    s0.fb = s.fb ∧ s0.rot = s.rot ∧ s0.phase = s.phase ∧ (i ≠ .showPanels → s0.tb = s.tb) := by
  cases h with
  | showPanels => exact ⟨rfl, rfl, rfl, fun hne => absurd rfl hne⟩
  | setBrightness | shutdown => exact ⟨rfl, rfl, rfl, fun _ => rfl⟩
  | init => exact absurd rfl hi

@[simp] theorem phaseAfter_of_ne_init {i : Instr} (h : i ≠ .init) (out : Option Failure) (phase : Phase) :
    phaseAfter i out phase = phase := by
  simp [phaseAfter, h]

/-- What each command that is no pixel command leaves of FB, ROT, TB and PHASE (R152, R174, R176, R177). -/
theorem exec_panel_unchanged {i : Instr} (hi : i.isPixel = false) (hne : i ≠ .init) {s t : State}
    (h : exec i s = .next t) :
    t.fb = s.fb ∧ t.rot = s.rot ∧ t.phase = s.phase ∧ (i ≠ .showPanels → t.tb = s.tb) := by
  obtain ⟨-, -, he⟩ | ⟨_, _, s0, evs, n, out, hplan, -, he⟩ | ⟨_, _, s0, evs, n, hplan, -, he⟩ := exec_panel hi s <;>
    cases he.symm.trans h
  · exact ⟨rfl, rfl, rfl, fun _ => rfl⟩
  · simpa [hne] using hplan.unchanged hne
  · simpa using hplan.unchanged hne

/-- Settles O50: the pixel commands by their effects, the panel commands by what they leave unchanged. -/
theorem onlyTheNamedCommandsWrite : Obligations.OnlyTheNamedCommandsWrite := by
  intro i s t h
  cases hi : i.isPixel with
  | true =>
    obtain ⟨c, fb, rot, heff, he⟩ := exec_pixelEffect hi s
    cases he.symm.trans h
    refine ⟨fun hfb => ?_, fun hrot => ?_, fun htb => absurd rfl htb, fun hphase => absurd rfl hphase⟩
    · cases heff with
      | wrote r g b => exact .inl ⟨_, _, r, g, b, rfl⟩
      | setAll r g b => exact .inr (.inl ⟨r, g, b, rfl⟩)
      | clear => exact .inr (.inr (.inl rfl))
      | dropped | rotated | notRotated | getShape => exact absurd rfl hfb
    · cases heff with
      | rotated hdeg => obtain rfl | rfl | rfl | rfl := legalDegrees_of_rotation hdeg <;> simp
      | wrote | dropped | setAll | clear | notRotated | getShape => exact absurd rfl hrot
  | false =>
    by_cases hinit : i = .init
    · simp [hinit]
    · obtain ⟨hfb, hrot, hphase, htb⟩ := exec_panel_unchanged hi hinit h
      refine ⟨fun hne => absurd hfb hne, fun hne => absurd hrot hne, fun hne => .inl ?_, fun hne => absurd hphase hne⟩
      exact Decidable.by_contra fun hshow => hne (htb hshow)

/-- A command appends to EV and leaves the parameters (R35, R28, R29). -/
theorem exec_appends {i : Instr} {s t : State} (h : exec i s = .next t) :
    (∃ evs, t.ev = s.ev ++ evs) ∧ t.params = s.params := by
  cases hi : i.isPixel with
  | true =>
    obtain ⟨c, fb, rot, -, he⟩ := exec_pixelEffect hi s
    cases he.symm.trans h
    exact ⟨⟨[], (List.append_nil _).symm⟩, rfl⟩
  | false =>
    obtain ⟨-, -, he⟩ | ⟨_, _, s0, evs, n, out, hplan, -, he⟩ | ⟨_, _, s0, evs, n, hplan, -, he⟩ := exec_panel hi s <;>
      cases he.symm.trans h
    · exact ⟨⟨[], (List.append_nil _).symm⟩, rfl⟩
    all_goals
      obtain ⟨hparams, hev⟩ := hplan.params_ev
      exact ⟨⟨evs, congrArg (· ++ evs) hev⟩, hparams⟩

/-- Settles O49: a step does nothing, refuses a word, or carries out a command. -/
theorem traceIsAppendOnly : Obligations.TraceIsAppendOnly := by
  intro s t h
  obtain he | ⟨w, rest, -, -, ⟨i, -, he⟩ | he⟩ := step_cases s
  · cases he.symm.trans h
    exact ⟨⟨[], List.append_nil _⟩, rfl⟩
  · obtain ⟨⟨evs, hev⟩, hparams⟩ := exec_appends (he.symm.trans h)
    exact ⟨⟨evs, hev.symm⟩, hparams⟩
  · cases he.symm.trans h
    exact ⟨⟨[], List.append_nil _⟩, rfl⟩

/-- Settles O31: INIT starts from UNINIT with BUSY = 1 and reaches READY only by sending every frame without a failure. -/
theorem initReadyExactlyOnOk : Obligations.InitReadyExactlyOnOk := by
  intro s t h
  obtain ⟨-, hne, -⟩ | ⟨_, _, s0, evs, n, out, hplan, -, he⟩ | ⟨_, _, s0, evs, n, hplan, -, he⟩ :=
    exec_panel (i := .init) rfl s
  · exact absurd rfl hne
  · cases he.symm.trans h
    cases hplan
    cases out with
    | none => simp [phaseAfter, Completion.ofFailure]
    | some f => simp [phaseAfter, Completion.ofFailure, Completion.code]
  · cases he.symm.trans h
    cases hplan
    simp

end Sys2Proof.Machine
end

section
/-! ### The legal states (R28 to R33, R62, R63, R88, R172, R245) -/

namespace Sys2Proof.Machine

/-! The transfer buffer. -/

/-- A write of a stored channel to an addressed offset keeps the buffer legal (R62, R63). -/
theorem LegalTb.write {P : Params} {tb : Memory} (h : LegalTb P tb) {a : Fin 448} (ha : a.val ∈ P.lut.offsets)
    (v : Channel) : LegalTb P (tb.write a (v.setWidth 8)) := by
  obtain ⟨hwf, hmax, hzero⟩ := h
  refine ⟨Memory.write_wf hwf a.isLt _, fun a' => ?_, fun a' ha' => ?_⟩
  · rw [Memory.read_write hwf.1]
    split
    · have hv : v.toNat < 64 := v.isLt
      rw [BitVec.toNat_setWidth]
      omega
    · exact hmax a'
  · rw [Memory.read_write hwf.1, if_neg (by rintro rfl; exact ha' ha)]
    exact hzero a' ha'

/-- The three offsets of an entry are among the table's (R28). -/
theorem Lut.mem_offsets {lut : Lut} {e : LutEntry} (h : e ∈ lut.toList) :
    e.ro.val ∈ lut.offsets ∧ e.go.val ∈ lut.offsets ∧ e.bo.val ∈ lut.offsets := by
  refine ⟨?_, ?_, ?_⟩ <;> exact List.mem_flatMap.2 ⟨e, h, by simp⟩

theorem LegalTb.repackSlot {P : Params} {tb : Memory} (h : LegalTb P tb) {e : LutEntry} (he : e ∈ P.lut.toList)
    (c : Rgb) : LegalTb P (repackSlot tb e c) := by
  obtain ⟨hr, hg, hb⟩ := Lut.mem_offsets he
  exact ((h.write hr c.r).write hg c.g).write hb c.b

theorem LegalTb.repackSlots {P : Params} {l : List (LutEntry × Rgb)} (hl : ∀ p ∈ l, p.1 ∈ P.lut.toList) {tb : Memory}
    (h : LegalTb P tb) : LegalTb P (repackSlots l tb) := by
  induction l generalizing tb with
  | nil => exact h
  | cons p rest ih =>
    obtain ⟨hp, hrest⟩ := List.forall_mem_cons.1 hl
    exact ih hrest (h.repackSlot hp p.2)

/-- The repack keeps the buffer legal, whatever FB holds (R150). -/
theorem LegalTb.repack {P : Params} {tb : Memory} (h : LegalTb P tb) (fb : FrameBuffer) :
    LegalTb P (repack P.lut fb tb) :=
  h.repackSlots fun _ hp => (List.of_mem_zip hp).1

/-- The construction state's buffer is legal (R176). -/
theorem legalTb_nil (P : Params) : LegalTb P [] :=
  ⟨by simp [Memory.wf], fun _ => Nat.zero_le _, fun _ _ => rfl⟩

/-! STATUS and ERR_IO. -/

/-- A completion some command of the block can have: a shape is a footprint, a failed frame is one of INIT's eight
(R110, R211, R213). -/
def Completion.Reportable : Completion → Prop
  | .shape w h => ∃ rot, Machine.shape rot = (w, h)
  | .transportError f => f.frame ≤ 7
  | .ok | .configError | .illegalCommand | .notInitialised => True

/-- Every reportable completion writes a legal STATUS word (R31, R118). -/
theorem legalStatus_of_reportable {c : Completion} (h : c.Reportable) : LegalStatus c.status := by
  cases c with
  | shape w ht =>
    obtain ⟨rot, hrot⟩ := h
    cases rot <;> cases hrot <;> unfold LegalStatus <;> decide
  | transportError f =>
    obtain ⟨hcode, hpanel, hphase, h7, hframe, h15, hw, hh⟩ :=
      packStatus_fields 0 0 (BitVec.ofNat 4 f.frame) f.step.code f.panel.code 2#4
    have hlt : f.frame ≤ 7 := h
    have hstep : f.step.code ≠ 3 := by cases f.step <;> decide
    refine ⟨h7, h15, by rw [Completion.status, Completion.code, hcode]; decide, by rwa [statusEphase_transportError],
      ?_, fun hne => absurd hcode hne, .inl ⟨hw, hh⟩⟩
    rw [Completion.status, Completion.code, hframe, BitVec.toNat_ofNat]
    omega
  | ok | configError | illegalCommand | notInitialised => simp only [LegalStatus]; decide

/-- ERR_IO is held exactly on TRANSPORT_ERROR (R33). -/
theorem errIo_isSome_iff (c : Completion) : c.errIo.isSome = true ↔ c.code = 2 := by
  cases c <;> simp [Completion.code]

/-! The chip-select framing of a trace. -/

/-- What follows an idle trace is framed as if it stood alone (R245). -/
theorem framing_append_of_idle {P : Params} {evs : List Event} (h : framing P evs = .idle) (evs' : List Event) :
    framing P (evs ++ evs') = framing P evs' := by
  rw [framing, List.foldl_append, show evs.foldl (Framing.next P) .idle = .idle from h, framing]

/-- A panel's pin and connection belong together (R29). -/
theorem Params.cs_conn (P : Params) (p : Panel) :
    P.csA = P.cs p ∧ P.connA = P.conn p ∨ P.csB = P.cs p ∧ P.connB = P.conn p := by
  cases p
  · exact .inl ⟨rfl, rfl⟩
  · exact .inr ⟨rfl, rfl⟩

/-- A transfer that returns leaves no transfer under way (R172). -/
theorem XferTrace.framing_eq {P : Params} {p : Panel} {frame : List Byte} {evs : List Event}
    {result : Option (XferStep × IOError)} (h : XferTrace P p frame evs result) : framing P evs = .idle := by
  cases h with
  | selectFails e => rfl
  | sent spi release h1 h2 => simp [framing, xferEvents, Framing.next, P.cs_conn p, h1, h2]

/-- A transfer that never returns leaves its call waiting (R221). -/
theorem XferHung.framing_eq {P : Params} {p : Panel} {frame : List Byte} {evs : List Event}
    (h : XferHung P p frame evs) : framing P evs = .waiting := by
  cases h with
  | select => rfl
  | spi => simp [framing, Framing.next, P.cs_conn p]
  | release spi h => simp [framing, xferEvents, Framing.next, P.cs_conn p, h]

/-- A frame with its Sleep leaves no transfer under way (R178). -/
theorem XferTrace.framing_settled {P : Params} {job : Job} {evs : List Event}
    {result : Option (XferStep × IOError)} (h : XferTrace P job.panel job.bytes evs result) :
    framing P (evs ++ settleEvents P job) = .idle := by
  rw [framing_append_of_idle h.framing_eq]
  by_cases hs : job.settle <;> simp [settleEvents, hs, framing, Framing.next]

/-- A sequence of frames that returns leaves no transfer under way (R172, R245). -/
theorem JobsTrace.framing_eq {P : Params} {abort : Bool} {jobs : List Job} {first out : Option Failure}
    {evs : List Event} (h : JobsTrace P abort jobs first evs out) : framing P evs = .idle := by
  induction h with
  | nil => rfl
  | sent hx _ ih => rw [framing_append_of_idle hx.framing_settled, ih]
  | stopped _ hx => exact hx.framing_eq
  | goesOn _ hx _ ih => rw [framing_append_of_idle hx.framing_settled, ih]

/-- A sequence of frames that never returns leaves its last call waiting (R221). -/
theorem JobsHung.framing_eq {P : Params} {abort : Bool} {jobs : List Job} {evs : List Event}
    (h : JobsHung P abort jobs evs) : framing P evs = .waiting := by
  induction h with
  | here hx => exact hx.framing_eq
  | later _ hx _ ih => rw [framing_append_of_idle hx.framing_settled, ih]

/-! The frames a trace sends. -/

/-- A frame a command may send: one of the ten forms, numbered within INIT's eight (R88, R213). -/
def Job.Legal (P : Params) (job : Job) : Prop := FrameForm P job.bytes ∧ job.index ≤ 7

theorem xferEvents_legalFrame {P : Params} {frame : List Byte} (h : FrameForm P frame) (p : Panel)
    (select spi release : Answer) : ∀ e ∈ xferEvents P p frame select spi release, e.legalFrame P := by
  simp [xferEvents, Event.legalFrame, h]

theorem XferTrace.legalFrame {P : Params} {p : Panel} {frame : List Byte} {evs : List Event}
    {result : Option (XferStep × IOError)} (h : XferTrace P p frame evs result) (hf : FrameForm P frame) :
    ∀ e ∈ evs, e.legalFrame P := by
  cases h with
  | selectFails e => simp [Event.legalFrame]
  | sent spi release => exact xferEvents_legalFrame hf p _ _ _

theorem XferHung.legalFrame {P : Params} {p : Panel} {frame : List Byte} {evs : List Event}
    (h : XferHung P p frame evs) (hf : FrameForm P frame) : ∀ e ∈ evs, e.legalFrame P := by
  cases h with
  | select => simp [Event.legalFrame]
  | spi => simp [Event.legalFrame, hf]
  | release spi => exact xferEvents_legalFrame hf p _ _ _

theorem settleEvents_legalFrame (P : Params) (job : Job) : ∀ e ∈ settleEvents P job, e.legalFrame P := by
  by_cases hs : job.settle <;> simp [settleEvents, hs, Event.legalFrame]

/-- A frame with its Sleep, and legal events after it. -/
theorem XferTrace.legalFrame_append {P : Params} {job : Job} {evs evs' : List Event}
    {result : Option (XferStep × IOError)} (h : XferTrace P job.panel job.bytes evs result)
    (hf : FrameForm P job.bytes) (h' : ∀ e ∈ evs', e.legalFrame P) :
    ∀ e ∈ evs ++ settleEvents P job ++ evs', e.legalFrame P :=
  List.forall_mem_append.2 ⟨List.forall_mem_append.2 ⟨h.legalFrame hf, settleEvents_legalFrame P job⟩, h'⟩

/-- Legal jobs send legal frames only (R88, R90). -/
theorem JobsTrace.legalFrame {P : Params} {abort : Bool} {jobs : List Job} {first out : Option Failure}
    {evs : List Event} (h : JobsTrace P abort jobs first evs out) (hjobs : ∀ job ∈ jobs, job.Legal P) :
    ∀ e ∈ evs, e.legalFrame P := by
  induction h with
  | nil => simp
  | stopped _ hx => exact hx.legalFrame (List.forall_mem_cons.1 hjobs).1.1
  | sent hx _ ih | goesOn _ hx _ ih =>
    obtain ⟨⟨hform, -⟩, hrest⟩ := List.forall_mem_cons.1 hjobs
    exact hx.legalFrame_append hform (ih hrest)

theorem JobsHung.legalFrame {P : Params} {abort : Bool} {jobs : List Job} {evs : List Event}
    (h : JobsHung P abort jobs evs) (hjobs : ∀ job ∈ jobs, job.Legal P) : ∀ e ∈ evs, e.legalFrame P := by
  induction h with
  | here hx => exact hx.legalFrame (List.forall_mem_cons.1 hjobs).1.1
  | later _ hx _ ih =>
    obtain ⟨⟨hform, -⟩, hrest⟩ := List.forall_mem_cons.1 hjobs
    exact hx.legalFrame_append hform (ih hrest)

/-- What a sequence of legal jobs reports is reportable, whatever failure it began with (R213, R214). -/
theorem JobsTrace.reportable {P : Params} {abort : Bool} {jobs : List Job} {first out : Option Failure}
    {evs : List Event} (h : JobsTrace P abort jobs first evs out) (hjobs : ∀ job ∈ jobs, job.Legal P)
    (hfirst : (Completion.ofFailure first).Reportable) : (Completion.ofFailure out).Reportable := by
  have hor : ∀ {first : Option Failure} {job : Job} (xferStep : XferStep) (e : IOError), job.Legal P →
      (Completion.ofFailure first).Reportable →
      (Completion.ofFailure (first.or (some (job.failure xferStep e)))).Reportable := by
    intro first job xferStep e hjob hfirst
    cases first with
    | none => exact hjob.2
    | some f => exact hfirst
  induction h with
  | nil => exact hfirst
  | sent _ _ ih => exact ih (List.forall_mem_cons.1 hjobs).2 hfirst
  | stopped _ _ => exact hor _ _ (List.forall_mem_cons.1 hjobs).1 hfirst
  | goesOn _ _ _ ih =>
    obtain ⟨hjob, hrest⟩ := List.forall_mem_cons.1 hjobs
    exact ih hrest (hor _ _ hjob hfirst)

theorem frameForm_bright (P : Params) (c : Fin 64) : FrameForm P (frBright P c) := .inr (.inl ⟨c, rfl⟩)

theorem frameForm_writeDisplay (P : Params) {payload : List Byte} (h : payload.length = 224) :
    FrameForm P (frWriteDisplay P payload) := by
  simp only [FrameForm]
  exact .inr (.inr (.inr (.inr (.inr (.inr (.inr (.inr (.inr ⟨payload, h, rfl⟩))))))))

theorem initFrames_form (P : Params) : ∀ frame ∈ initFrames P, FrameForm P frame := by
  have hwd := frameForm_writeDisplay P (List.length_replicate (n := 224) (a := 0#8))
  simp only [initFrames, List.forall_mem_cons]
  refine ⟨?_, frameForm_bright P 1, ?_, ?_, hwd, ?_, ?_, ?_, by simp⟩ <;> simp [FrameForm]

theorem shutdownFrames_form (P : Params) : ∀ frame ∈ shutdownFrames P, FrameForm P frame := by
  simp [shutdownFrames, FrameForm]

/-- The jobs of at most eight legal frames are legal (R175). -/
theorem panelJobs_legal {P : Params} {frames : List (List Byte)} (hform : ∀ frame ∈ frames, FrameForm P frame)
    (hlen : frames.length ≤ 8) (p : Panel) (b : Bool) : ∀ job ∈ panelJobs p b frames, job.Legal P := by
  intro job hjob
  obtain ⟨⟨bytes, k⟩, hmem, rfl⟩ := List.mem_map.1 hjob
  obtain ⟨hk, hbytes⟩ := List.mem_zipIdx' hmem
  exact ⟨hform bytes (hbytes ▸ List.getElem_mem hk), Nat.le_of_lt_succ (hk.trans_le hlen)⟩

theorem bothPanels_legal {P : Params} {frames : List (List Byte)} (hform : ∀ frame ∈ frames, FrameForm P frame)
    (hlen : frames.length ≤ 8) (b : Bool) : ∀ job ∈ bothPanels b frames, job.Legal P :=
  List.forall_mem_append.2 ⟨panelJobs_legal hform hlen .a b, panelJobs_legal hform hlen .b b⟩

theorem showJobs_legal (P : Params) (tb : Memory) : ∀ job ∈ showJobs P tb, job.Legal P := by
  have hlen : ∀ p, (panelPayload tb p).length = 224 := fun p => tb.length_slice p.offset 224
  have hjobs : ∀ p, ∀ job ∈ panelJobs p false [frWriteDisplay P (panelPayload tb p)], job.Legal P := fun p =>
    panelJobs_legal (by simpa using frameForm_writeDisplay P (hlen p)) (by simp) p false
  exact List.forall_mem_append.2 ⟨hjobs .a, hjobs .b⟩

/-- Every panel command sends legal frames only (R88, R90). -/
theorem Plan.jobs_legal {s s0 : State} {i : Instr} {abort : Bool} {jobs : List Job} (h : Plan s i abort jobs s0) :
    ∀ job ∈ jobs, job.Legal s.params := by
  cases h with
  | showPanels => exact showJobs_legal _ _
  | setBrightness br => exact bothPanels_legal (by simpa using frameForm_bright _ _) (by simp) _
  | init => exact bothPanels_legal (initFrames_form _) (by simp [initFrames]) _
  | shutdown => exact bothPanels_legal (shutdownFrames_form _) (by simp [shutdownFrames]) _

/-! What keeps a state legal. -/

/-- Legality speaks of six fields: a state with those of a legal one, or with BUSY raised, is legal. -/
theorem LegalState.of_fields {s t : State} (h : LegalState s) (hparams : t.params = s.params)
    (htb : LegalTb t.params t.tb) (hstatus : t.status = s.status) (herrIo : t.errIo = s.errIo) (hev : t.ev = s.ev)
    (hbusy : t.busy = false → s.busy = false) : LegalState t where
  params := hparams ▸ h.params
  tb := htb
  status := hstatus ▸ h.status
  errIo := by rw [herrIo, hstatus]; exact h.errIo
  frames := by rw [hev, hparams]; exact h.frames
  framed := by rw [hev, hparams]; exact h.framed
  betweenCommands hb := by rw [hev, hparams]; exact h.betweenCommands (hbusy hb)

/-- A command begins in a legal state (R34). -/
theorem LegalState.beginCommand {s : State} (h : LegalState s) : LegalState (beginCommand s) :=
  h.of_fields rfl h.tb rfl rfl rfl nofun

/-- A command ends in a legal state where its completion is reportable and no transfer is under way (R13, R245). -/
theorem LegalState.finish {s : State} (h : LegalState s) {c : Completion} (hc : c.Reportable)
    (hidle : framing s.params s.ev = .idle) : LegalState (finish c s) where
  params := h.params
  tb := h.tb
  status := legalStatus_of_reportable hc
  errIo := by simp only [finish_errIo, finish_status, statusCode_status]; exact errIo_isSome_iff c
  frames := h.frames
  framed := h.framed
  betweenCommands _ := hidle

/-- Legal events recorded while BUSY = 1 keep a state legal, unless they break the framing (R35, R88). -/
theorem LegalState.logged {s : State} (h : LegalState s) (hbusy : s.busy = true) {evs : List Event}
    (hevs : ∀ e ∈ evs, e.legalFrame s.params) (hframed : framing s.params (s.ev ++ evs) ≠ .broken) (n : Nat) :
    LegalState (s.logged evs n) where
  params := h.params
  tb := h.tb
  status := h.status
  errIo := h.errIo
  frames := List.forall_mem_append.2 ⟨h.frames, hevs⟩
  framed := hframed
  betweenCommands hb := absurd (hbusy.symm.trans hb) (by simp)

/-- A panel command sends its frames from a legal state (R152, R174, R176, R177). -/
theorem Plan.legal {s s0 : State} {i : Instr} {abort : Bool} {jobs : List Job} (hplan : Plan s i abort jobs s0)
    (h : LegalState s) : LegalState s0 := by
  cases hplan with
  | showPanels => exact h.of_fields rfl (h.tb.repack s.fb) rfl rfl rfl nofun
  | init => exact h.of_fields rfl (legalTb_nil _) rfl rfl rfl nofun
  | setBrightness | shutdown => exact h.of_fields rfl h.tb rfl rfl rfl nofun

/-- A pixel command's completion is reportable (R114 to R118). -/
theorem PixelEffect.reportable {s : State} {i : Instr} {c : Completion} {fb : FrameBuffer} {rot : Rotation}
    (h : PixelEffect s i c fb rot) : c.Reportable := by
  cases h with
  | getShape => exact ⟨s.rot, rfl⟩
  | wrote | dropped | setAll | clear | rotated | notRotated => trivial

/-- A pixel command keeps the legal states. -/
theorem exec_pixel_legal {i : Instr} (hi : i.isPixel = true) {s t : State} (h : LegalState s)
    (hidle : framing s.params s.ev = .idle) (he : exec i s = .next t) : LegalState t := by
  obtain ⟨c, fb, rot, heff, he'⟩ := exec_pixelEffect hi s
  cases he'.symm.trans he
  have hbody : LegalState { beginCommand s with fb := fb, rot := rot } := h.of_fields rfl h.tb rfl rfl rfl nofun
  exact hbody.finish heff.reportable hidle

/-- A panel command keeps the legal states: its frames leave the framing idle where they return, waiting where they hang. -/
theorem exec_panel_legal {i : Instr} (hi : i.isPixel = false) {s t : State} (h : LegalState s)
    (hidle : framing s.params s.ev = .idle) (he : exec i s = .next t) : LegalState t := by
  obtain ⟨-, -, he'⟩ | ⟨_, _, s0, evs, n, out, hplan, htrace, he'⟩ | ⟨_, _, s0, evs, n, hplan, hhung, he'⟩ :=
    exec_panel hi s <;> cases he'.symm.trans he
  · exact h.beginCommand.finish trivial hidle
  · obtain ⟨hparams, hev⟩ := hplan.params_ev
    have hframing : framing s0.params (s0.ev ++ evs) = .idle := by
      rw [hparams, hev, framing_append_of_idle hidle, htrace.framing_eq]
    have hsent : LegalState (s0.logged evs n) := (hplan.legal h).logged hplan.busy
      (hparams ▸ htrace.legalFrame hplan.jobs_legal) (by simp [hframing]) n
    have hphase : LegalState { s0.logged evs n with phase := phaseAfter i out s0.phase } :=
      hsent.of_fields rfl hsent.tb rfl rfl rfl id
    exact hphase.finish (htrace.reportable hplan.jobs_legal trivial) hframing
  · obtain ⟨hparams, hev⟩ := hplan.params_ev
    have hframing : framing s0.params (s0.ev ++ evs) = .waiting := by
      rw [hparams, hev, framing_append_of_idle hidle, hhung.framing_eq]
    exact (hplan.legal h).logged hplan.busy (hparams ▸ hhung.legalFrame hplan.jobs_legal) (by simp [hframing]) n

/-- Every command begun between commands keeps the legal states. -/
theorem exec_legal {i : Instr} {s t : State} (h : LegalState s) (hidle : framing s.params s.ev = .idle)
    (he : exec i s = .next t) : LegalState t := by
  cases hi : i.isPixel with
  | true => exact exec_pixel_legal hi h hidle he
  | false => exact exec_panel_legal hi h hidle he

/-- Settles O48: a word is taken only while BUSY = 0, where the framing is idle. -/
theorem stepKeepsLegalStates : Obligations.StepKeepsLegalStates := by
  intro s t h hst
  obtain he | ⟨w, rest, hbusy, -, hword⟩ := step_cases s
  · cases he.symm.trans hst
    exact h
  · have hidle := h.betweenCommands hbusy
    have htaken : LegalState { s with cmds := rest } := h.of_fields rfl h.tb rfl rfl rfl id
    obtain ⟨i, -, he⟩ | he := hword
    · exact exec_legal htaken hidle (he.symm.trans hst)
    · cases he.symm.trans hst
      exact htaken.beginCommand.finish trivial hidle

end Sys2Proof.Machine
end

section
/-! ### No readback of FB and TB (R23, R60, R67)

Two runs from states that differ in FB and TB are followed side by side: each operation takes states the host cannot tell
apart to states it cannot tell apart, whatever bytes their frames carry. -/

namespace Sys2Proof.Machine

/-- The states agree in every field but FB, TB and EV, and in the number of events. -/
structure State.Alike (s s' : State) : Prop where
  params : s'.params = s.params
  rot : s'.rot = s.rot
  phase : s'.phase = s.phase
  status : s'.status = s.status
  errIo : s'.errIo = s.errIo
  busy : s'.busy = s.busy
  cmds : s'.cmds = s.cmds
  platform : s'.platform = s.platform
  evLength : s'.ev.length = s.ev.length

theorem State.alike_fb_tb (s : State) (fb : FrameBuffer) (tb : Memory) : s.Alike { s with fb := fb, tb := tb } :=
  ⟨rfl, rfl, rfl, rfl, rfl, rfl, rfl, rfl, rfl⟩

/-- What the host reads is alike (R70). -/
theorem State.Alike.hostRead {s s' : State} (h : s.Alike s') : hostRead s' = hostRead s := by
  simp only [Machine.hostRead, h.busy, h.status, h.errIo]

theorem State.Alike.record {s s' : State} (h : s.Alike s') (e e' : Event) : (record e s).Alike (record e' s') :=
  { h with evLength := by simp [h.evLength] }

theorem State.Alike.settle {s s' : State} (h : s.Alike s') : (settle s).Alike (settle s') := h.record _ _

theorem State.Alike.beginCommand {s s' : State} (h : s.Alike s') : (beginCommand s).Alike (beginCommand s') :=
  { h with busy := rfl }

theorem State.Alike.finish {s s' : State} (h : s.Alike s') (c : Completion) : (finish c s).Alike (finish c s') :=
  { h with status := rfl, errIo := rfl, busy := rfl }

theorem State.Alike.construct {s s' : State} (h : s.Alike s') : (construct s).Alike (construct s') :=
  { h with rot := rfl, phase := rfl }

/-- The two runs have ended with the same value, or both hang, in states alike. -/
inductive Run.Alike {α : Type} : Run α → Run α → Prop where
  | done (v : α) {s s' : State} (h : s.Alike s') : Run.Alike (.done v s) (.done v s')
  | hung {s s' : State} (h : s.Alike s') : Run.Alike (.hung s) (.hung s')

/-- Sequencing keeps runs alike (R14). -/
theorem Run.Alike.bind {α β : Type} {r r' : Run α} {k k' : α → State → Run β} (h : r.Alike r')
    (hk : ∀ v s s', s.Alike s' → (k v s).Alike (k' v s')) : (r.bind k).Alike (r'.bind k') := by
  cases h with
  | done v hs => exact hk v _ _ hs
  | hung hs => exact .hung hs

/-- Bodies that go alike leave their commands alike (R216). -/
theorem Run.Alike.close {r r' : Run Completion} (h : r.Alike r') : r.close.Alike r'.close := by
  cases h with
  | done c hs => exact hs.finish c
  | hung hs => exact hs

/-- A platform call is answered alike, whatever it asks: the answer is drawn by its number (R67, log 2). -/
theorem platformCall_alike {s s' : State} (h : s.Alike s') (event event' : Answer → Event) :
    (platformCall event s).Alike (platformCall event' s') := by
  have hdrawn : State.Alike { s with platform := s.platform.advance } { s' with platform := s'.platform.advance } :=
    { h with platform := congrArg Platform.advance h.platform }
  simp only [platformCall, h.platform] at hdrawn ⊢
  cases s.platform.answer 0 with
  | ok => exact .done _ (hdrawn.record _ _)
  | err e => exact .done _ (hdrawn.record _ _)
  | never => exact .hung (hdrawn.record _ _)

/-- A transfer goes alike, whatever frame it sends (R170). -/
theorem xfer_alike {s s' : State} (h : s.Alike s') (p : Panel) (frame frame' : List Byte) :
    (xfer p frame s).Alike (xfer p frame' s') := by
  refine (platformCall_alike h _ _).bind fun select s1 s1' h1 => ?_
  cases select with
  | some e => exact .done _ h1
  | none =>
    refine (platformCall_alike h1 _ _).bind fun spi s2 s2' h2 => ?_
    exact (platformCall_alike h2 _ _).bind fun release s3 s3' h3 => .done _ h3

/-- The same frame of a sequence, up to its bytes. -/
def Job.SameSlot (job job' : Job) : Prop :=
  job'.panel = job.panel ∧ job'.index = job.index ∧ job'.settle = job.settle

/-- A sequence of frames goes alike, whatever bytes they carry (R152, R174, R176, R177). -/
theorem runJobs_alike (abort : Bool) {jobs jobs' : List Job} (hjobs : List.Forall₂ Job.SameSlot jobs jobs')
    (first : Option Failure) {s s' : State} (h : s.Alike s') :
    (runJobs abort jobs first s).Alike (runJobs abort jobs' first s') := by
  induction hjobs generalizing first s s' with
  | nil => exact .done _ h
  | @cons job job' rest rest' hjob _ ih =>
    obtain ⟨hpanel, hindex, hsettle⟩ := hjob
    rw [runJobs_cons, runJobs_cons, hpanel, hindex, hsettle]
    refine (xfer_alike h _ _ _).bind fun result s1 s1' h1 => ?_
    have hset : State.Alike (if job.settle then settle s1 else s1) (if job.settle then settle s1' else s1') := by
      split
      · exact h1.settle
      · exact h1
    match result with
    | none => exact ih first hset
    | some (xferStep, e) =>
      cases abort with
      | true => exact .done _ h1
      | false => exact ih _ hset

theorem sameSlot_refl (jobs : List Job) : List.Forall₂ Job.SameSlot jobs jobs :=
  List.forall₂_same.2 fun _ _ => ⟨rfl, rfl, rfl⟩

/-- SHOW's two frames differ in their bytes alone, whatever TB holds (R152). -/
theorem showJobs_sameSlot (P : Params) (tb tb' : Memory) :
    List.Forall₂ Job.SameSlot (showJobs P tb) (showJobs P tb') :=
  .cons ⟨rfl, rfl, rfl⟩ (.cons ⟨rfl, rfl, rfl⟩ .nil)

/-- The two outcomes are next states alike. -/
def OutcomesAlike (o o' : Host.Outcome State Fault Refusal) : Prop :=
  ∃ t t', o = .next t ∧ o' = .next t' ∧ t.Alike t'

/-- A pixel command completes alike: its completion and ROT come from its operands, the parameters and ROT (R114 to R118). -/
theorem PixelEffect.alike {s s' : State} (h : s.Alike s') {i : Instr} {c c' : Completion} {fb fb' : FrameBuffer}
    {rot rot' : Rotation} (heff : PixelEffect s i c fb rot) (heff' : PixelEffect s' i c' fb' rot') :
    c' = c ∧ rot' = rot := by
  cases heff with
  | wrote | dropped => cases heff' <;> exact ⟨rfl, h.rot⟩
  | setAll | clear => cases heff'; exact ⟨rfl, h.rot⟩
  | rotated hr =>
    cases heff' with
    | rotated hr' => exact ⟨rfl, Option.some.inj (hr'.symm.trans hr)⟩
    | notRotated hr' => cases hr'.symm.trans hr
  | notRotated hr =>
    cases heff' with
    | rotated hr' => cases hr'.symm.trans hr
    | notRotated => exact ⟨rfl, h.rot⟩
  | getShape => cases heff'; exact ⟨by rw [h.rot], h.rot⟩

theorem exec_pixel_alike {i : Instr} (hi : i.isPixel = true) {s s' : State} (h : s.Alike s') :
    OutcomesAlike (exec i s) (exec i s') := by
  obtain ⟨c, fb, rot, heff, he⟩ := exec_pixelEffect hi s
  obtain ⟨c', fb', rot', heff', he'⟩ := exec_pixelEffect hi s'
  obtain ⟨rfl, rfl⟩ := heff.alike h heff'
  have hbody : State.Alike { beginCommand s with fb := fb, rot := rot' }
      { beginCommand s' with fb := fb', rot := rot' } := { h.beginCommand with rot := rfl }
  exact ⟨_, _, he, he', hbody.finish c'⟩

/-- A panel command goes alike: FB and TB reach the bytes of SHOW's frames and nothing else (R152, R174, R176, R177). -/
theorem exec_panel_alike {i : Instr} (hi : i.isPixel = false) {s s' : State} (h : s.Alike s') :
    OutcomesAlike (exec i s) (exec i s') := by
  have uninit : i = .showPanels ∨ (∃ br, i = .setBrightness br) ∨ i = .shutdown → s.phase = .uninit →
      OutcomesAlike (exec i s) (exec i s') := fun hcheck hp =>
    ⟨_, _, exec_uninit hcheck hp, exec_uninit hcheck (h.phase.trans hp), h.beginCommand.finish _⟩
  have sent : ∀ (abort : Bool) {jobs jobs' : List Job} {s0 s0' : State}, List.Forall₂ Job.SameSlot jobs jobs' →
      s0.Alike s0' →
      OutcomesAlike
        (.next ((runJobs abort jobs none s0).bind fun first s1 => .done (.ofFailure first) s1).close)
        (.next ((runJobs abort jobs' none s0').bind fun first s1 => .done (.ofFailure first) s1).close) :=
    fun abort _ _ _ _ hjobs h0 =>
      ⟨_, _, rfl, rfl, ((runJobs_alike abort hjobs none h0).bind fun first _ _ h1 =>
        .done (Completion.ofFailure first) h1).close⟩
  cases i with
  | showPanels =>
    cases hp : s.phase with
    | uninit => exact uninit (.inl rfl) hp
    | ready =>
      rw [exec_showPanels_ready hp, exec_showPanels_ready (h.phase.trans hp), h.params]
      exact sent _ (showJobs_sameSlot _ _ _) { h.beginCommand with }
  | setBrightness br =>
    cases hp : s.phase with
    | uninit => exact uninit (.inr (.inl ⟨br, rfl⟩)) hp
    | ready =>
      rw [exec_setBrightness_ready br hp, exec_setBrightness_ready br (h.phase.trans hp), h.params]
      exact sent _ (sameSlot_refl _) h.beginCommand
  | shutdown =>
    cases hp : s.phase with
    | uninit => exact uninit (.inr (.inr rfl)) hp
    | ready =>
      rw [exec_shutdown_ready hp, exec_shutdown_ready (h.phase.trans hp), h.params]
      exact sent _ (sameSlot_refl _) h.beginCommand
  | init =>
    rw [exec_init_eq, exec_init_eq, h.params]
    refine ⟨_, _, rfl, rfl, ((runJobs_alike _ (sameSlot_refl _) none h.beginCommand.construct).bind ?_).close⟩
    intro first s1 s1' h1
    cases first with
    | none => exact .done _ { h1 with phase := rfl }
    | some f => exact .done _ h1
  | setPixel | setAll | clear | setRotation | getShape => cases hi

theorem exec_alike (i : Instr) {s s' : State} (h : s.Alike s') : OutcomesAlike (exec i s) (exec i s') := by
  cases hi : i.isPixel with
  | true => exact exec_pixel_alike hi h
  | false => exact exec_panel_alike hi h

/-- A step goes alike: the host's words and BUSY decide what is carried out. -/
theorem step_alike {s s' : State} (h : s.Alike s') : OutcomesAlike (step s) (step s') := by
  cases hb : s.busy with
  | true => exact ⟨_, _, step_of_busy hb, step_of_busy (h.busy.trans hb), h⟩
  | false =>
    cases hc : s.cmds with
    | nil => exact ⟨_, _, step_of_idle hc, step_of_idle (h.cmds.trans hc), h⟩
    | cons w rest =>
      have htaken : State.Alike { s with cmds := rest } { s' with cmds := rest } := { h with cmds := rfl }
      have hb' := h.busy.trans hb
      have hc' := h.cmds.trans hc
      cases hd : decode w with
      | ok i =>
        rw [step_of_decode hb hc hd, step_of_decode hb' hc' hd]
        exact exec_alike i htaken
      | error why =>
        exact ⟨_, _, step_of_illegal hb hc hd, step_of_illegal hb' hc' hd, htaken.beginCommand.finish _⟩

/-- A run's first step, where it ends in a next state. -/
theorem run_succ {s t : State} (n : Nat) (h : step s = .next t) :
    Host.Core.run Sys2Proof.core (n + 1) s = Host.Core.run Sys2Proof.core n t := by
  simp only [Host.Core.run, show Sys2Proof.core.step s = .next t from h]

/-- Whole runs go alike: beside a run that ends in a state, the other ends in a state alike. -/
theorem run_alike (n : Nat) {s s' t : State} (h : s.Alike s') (hrun : Host.Core.run Sys2Proof.core n s = .next t) :
    ∃ t', Host.Core.run Sys2Proof.core n s' = .next t' ∧ t.Alike t' := by
  induction n generalizing s s' with
  | zero =>
    cases hrun
    exact ⟨s', rfl, h⟩
  | succ n ih =>
    obtain ⟨u, u', hu, hu', halike⟩ := step_alike h
    rw [run_succ n hu] at hrun
    rw [run_succ n hu']
    exact ih halike hrun

/-- Settles O51: states alike after n steps agree in all the host reads. -/
theorem noReadbackOfFrameBuffer : Obligations.NoReadbackOfFrameBuffer := by
  intro n s t fb tb hrun
  obtain ⟨t', hrun', h⟩ := run_alike n (s.alike_fb_tb fb tb) hrun
  exact ⟨t', hrun', h.hostRead, h.rot, h.phase, h.cmds, h.platform, h.evLength⟩

end Sys2Proof.Machine
end

section
/-! ### The opcode map and the command word (R80 to R84) -/

namespace Sys2Proof

/-! A word's fields under a row's mask and match. -/

/-- A field all of whose bits the row's mask fixes holds the row's match in every word of the row (R83). -/
theorem Row.field_of_selects {row : Row} {w : CmdWord} {start len : Nat} (h : row.selects w = true)
    (hmask : row.mask.extractLsb' start len = BitVec.allOnes len) :
    w.extractLsb' start len = row.pattern.extractLsb' start len := by
  rw [← beq_iff_eq.1 h, BitVec.extractLsb'_and, hmask, BitVec.and_allOnes]

/-- Every row's mask fixes OP (R83). -/
theorem Row.opField_of_selects {row : Row} {w : CmdWord} (h : row.selects w = true) : opField w = row.opcode := by
  have hpattern : row.pattern.extractLsb' 56 8 = row.opcode := by cases row <;> decide
  exact (row.field_of_selects h (by cases row <;> decide)).trans hpattern

/-- No two rows have the same OP (R83). -/
theorem Row.eq_of_opcode_eq {row row' : Row} (h : row.opcode = row'.opcode) : row = row' := by
  revert row row'
  have hall : ∀ row ∈ Row.all, ∀ row' ∈ Row.all, row.opcode = row'.opcode → row = row' := by decide
  exact fun {row row'} => hall row (by cases row <;> decide) row' (by cases row' <;> decide)

/-- Settles O4: a word's OP names its row. -/
theorem atMostOneRowMatches : Obligations.AtMostOneRowMatches := by
  intro w row row' h h'
  exact Row.eq_of_opcode_eq ((Row.opField_of_selects h).symm.trans (Row.opField_of_selects h'))

/-! What the decoder answers, in terms of the rows. -/

theorem Row.mem_all (row : Row) : row ∈ Row.all := by cases row <;> decide

/-- The row the decoder looks up is the one the word selects (R83). -/
theorem Row.find?_eq_some_iff {w : CmdWord} {row : Row} :
    Row.all.find? (fun row => row.selects w) = some row ↔ row.selects w = true := by
  have hfound {row : Row} (hf : Row.all.find? (fun row => row.selects w) = some row) : row.selects w = true :=
    List.find?_some (p := fun row : Row => row.selects w) hf
  refine ⟨hfound, fun h => ?_⟩
  cases hf : Row.all.find? (fun row => row.selects w) with
  | none => exact absurd h (List.find?_eq_none.1 hf row row.mem_all)
  | some row' => exact congrArg some (atMostOneRowMatches w row' row (hfound hf) h)

/-- A word that decodes is read by a row it selects (R83). -/
theorem exists_row_of_decode {w : CmdWord} {i : Instr} (h : decode w = .ok i) :
    ∃ row : Row, row.selects w = true ∧ row.read w = i := by
  unfold decode at h
  split at h
  · next row hrow => exact ⟨row, Row.find?_eq_some_iff.1 hrow, Except.ok.inj h⟩
  · split at h <;> cases h

/-- A word decodes as the row it selects reads it (R83). -/
theorem decode_of_selects {w : CmdWord} {row : Row} (h : row.selects w = true) : decode w = .ok (row.read w) := by
  rw [decode, Row.find?_eq_some_iff.2 h]

/-- A word that selects no row is refused (R84). -/
theorem decode_eq_error {w : CmdWord} (h : ∀ row : Row, row.selects w ≠ true) : ∃ why, decode w = .error why := by
  cases hd : decode w with
  | ok i =>
    obtain ⟨row, hrow, -⟩ := exists_row_of_decode hd
    exact absurd hrow (h row)
  | error why => exact ⟨why, rfl⟩

/-! The operands a word holds (R82). -/

theorem wellFormed_setPixel_iff {x y : Int} {r g b : Byte} :
    (Instr.setPixel x y r g b).wellFormed = true ↔ CoordFits x ∧ CoordFits y :=
  Bool.and_eq_true_iff.trans (and_congr decide_eq_true_iff decide_eq_true_iff)

theorem wellFormed_setRotation_iff {deg : Int} : (Instr.setRotation deg).wellFormed = true ↔ DegFits deg :=
  decide_eq_true_iff

/-- What a row reads fits its fields (R82). -/
theorem Row.wellFormed_read (row : Row) (w : CmdWord) : (row.read w).wellFormed = true := by
  cases row with
  | setPixel =>
    have fits (v : BitVec coordBits) : CoordFits v.toInt := ⟨v.le_toInt, BitVec.toInt_lt⟩
    exact wellFormed_setPixel_iff.2 ⟨fits _, fits _⟩
  | setRotation =>
    have hlow : -2 ^ 31 ≤ degField w := BitVec.le_toInt _
    have hhigh : degField w < 2 ^ 31 := BitVec.toInt_lt
    exact wellFormed_setRotation_iff.2 (by omega)
  | setAll | clear | getShape | showPanels | setBrightness | init | shutdown => rfl

/-- A command's word selects the command's row (R83). -/
theorem selects_encode (i : Instr) : i.row.selects (encode i) = true := by
  cases i with
  | setPixel x y r g b => exact Laws.EncodesOwnRow.setPixel x y r g b
  | setAll r g b => exact Laws.EncodesOwnRow.setAll r g b
  | clear => exact Laws.EncodesOwnRow.clear
  | setRotation deg => exact Laws.EncodesOwnRow.setRotation deg
  | getShape => exact Laws.EncodesOwnRow.getShape
  | showPanels => exact Laws.EncodesOwnRow.showPanels
  | setBrightness br => exact Laws.EncodesOwnRow.setBrightness br
  | init => exact Laws.EncodesOwnRow.init
  | shutdown => exact Laws.EncodesOwnRow.shutdown

/-- The colour fields of FMT_PIXEL and FMT_RGB, whatever stands above them (R81). -/
theorem colourFields_append (top : BitVec 40) (r g b : Byte) :
    rField (top ++ r ++ g ++ b) = r ∧ gField (top ++ r ++ g ++ b) = g ∧ bField (top ++ r ++ g ++ b) = b := by
  refine ⟨?_, ?_, extract_append_low _ b⟩
  · exact (extract_append_high _ b 8 8).trans ((extract_append_high _ g 0 8).trans (extract_append_low top r))
  · exact (extract_append_high _ b 0 8).trans (extract_append_low _ g)

/-- The coordinate fields of FMT_PIXEL, whatever stands below them (R81). -/
theorem coordFields_append (op x y : Byte) (mid : BitVec 16) (r g b : Byte) :
    xField (op ++ x ++ y ++ mid ++ r ++ g ++ b) = x.toInt ∧ yField (op ++ x ++ y ++ mid ++ r ++ g ++ b) = y.toInt := by
  refine ⟨congrArg BitVec.toInt ?_, congrArg BitVec.toInt ?_⟩
  · exact (extract_append_high _ b 40 8).trans ((extract_append_high _ g 32 8).trans
      ((extract_append_high _ r 24 8).trans ((extract_append_high _ mid 8 8).trans
        ((extract_append_high _ y 0 8).trans (extract_append_low op x)))))
  · exact (extract_append_high _ b 32 8).trans ((extract_append_high _ g 24 8).trans
      ((extract_append_high _ r 16 8).trans ((extract_append_high _ mid 0 8).trans (extract_append_low _ y))))

/-- A command's row reads the command back from its word: an operand in its field's range is held by it (R82). -/
theorem read_encode {i : Instr} (h : i.wellFormed = true) : i.row.read (encode i) = i := by
  cases i with
  | setPixel x y r g b =>
    obtain ⟨hx, hy⟩ := wellFormed_setPixel_iff.1 h
    obtain ⟨hX, hY⟩ := coordFields_append 0x01#8 (BitVec.ofInt 8 x) (BitVec.ofInt 8 y) 0#16 r g b
    obtain ⟨hr, hg, hb⟩ := colourFields_append (0x01#8 ++ BitVec.ofInt 8 x ++ BitVec.ofInt 8 y ++ 0#16) r g b
    have hx' := hX.trans (BitVec.toInt_ofInt_eq_self (by decide) hx.1 hx.2)
    have hy' := hY.trans (BitVec.toInt_ofInt_eq_self (by decide) hy.1 hy.2)
    exact Instr.setPixel.injEq .. |>.mpr ⟨hx', hy', hr, hg, hb⟩
  | setAll r g b =>
    obtain ⟨hr, hg, hb⟩ := colourFields_append (0x02#8 ++ 0#32) r g b
    exact Instr.setAll.injEq .. |>.mpr ⟨hr, hg, hb⟩
  | setRotation deg =>
    obtain ⟨hlow, hhigh⟩ := wellFormed_setRotation_iff.1 h
    have hfield : degField (encode (.setRotation deg)) = (BitVec.ofInt 32 deg).toInt :=
      congrArg BitVec.toInt (extract_append_low _ _)
    exact congrArg Instr.setRotation (hfield.trans (BitVec.toInt_ofInt_eq_self (by decide) hlow (by omega)))
  | setBrightness br => exact congrArg Instr.setBrightness (extract_append_low _ br)
  | clear | getShape | showPanels | init | shutdown => rfl

/-- Settles O2: the command's word selects the command's row, which reads the command back. -/
theorem decodeOfEncode : Obligations.DecodeOfEncode := by
  intro i h
  rw [decode_of_selects (selects_encode i), read_encode h]

/-! A row's mask and its operand fields cover the whole word (R81). -/

/-- Words that agree below bit `n` and on the field above it agree below that field's end. -/
theorem low_eq_append {w w' : CmdWord} {n len : Nat} (hlow : w.extractLsb' 0 n = w'.extractLsb' 0 n)
    (hfield : w.extractLsb' n len = w'.extractLsb' n len) :
    w.extractLsb' 0 (len + n) = w'.extractLsb' 0 (len + n) := by
  have hsplit (v : CmdWord) : v.extractLsb' n len ++ v.extractLsb' 0 n = v.extractLsb' 0 (len + n) :=
    BitVec.extractLsb'_append_extractLsb'_eq_extractLsb' n.zero_add.symm
  rw [← hsplit, ← hsplit, hlow, hfield]

/-- Two words of one row that read as the same command are the same word. -/
theorem Row.eq_of_read_eq {row : Row} {w w' : CmdWord} (h : row.selects w = true) (h' : row.selects w' = true)
    (hread : row.read w = row.read w') : w = w' := by
  have fixed {start len : Nat} (hmask : row.mask.extractLsb' start len = BitVec.allOnes len) :
      w.extractLsb' start len = w'.extractLsb' start len :=
    (row.field_of_selects h hmask).trans (row.field_of_selects h' hmask).symm
  suffices hall : w.extractLsb' 0 64 = w'.extractLsb' 0 64 by
    rwa [BitVec.extractLsb'_eq_self, BitVec.extractLsb'_eq_self] at hall
  cases row with
  | setPixel =>
    injection hread with hx hy hr hg hb
    have hcolour := low_eq_append (low_eq_append hb hg) hr
    have hreserved := low_eq_append hcolour (fixed (start := 24) (len := 16) (by decide))
    have hcoords := low_eq_append (low_eq_append hreserved (BitVec.toInt_inj.1 hy)) (BitVec.toInt_inj.1 hx)
    exact low_eq_append hcoords (fixed (start := 56) (len := 8) (by decide))
  | setAll =>
    injection hread with hr hg hb
    exact low_eq_append (low_eq_append (low_eq_append hb hg) hr) (fixed (start := 24) (len := 40) (by decide))
  | setRotation =>
    injection hread with hdeg
    exact low_eq_append (BitVec.toInt_inj.1 hdeg) (fixed (start := 32) (len := 32) (by decide))
  | setBrightness =>
    injection hread with hbr
    exact low_eq_append hbr (fixed (start := 8) (len := 56) (by decide))
  | clear | getShape | showPanels | init | shutdown => exact fixed (by decide)

theorem Row.row_read (row : Row) (w : CmdWord) : (row.read w).row = row := by cases row <;> rfl

/-- Settles O3: the word and its command's word select one row and read as the same command. -/
theorem encodeOfDecode : Obligations.EncodeOfDecode := by
  intro w i h
  obtain ⟨row, hrow, rfl⟩ := exists_row_of_decode h
  have hwf := row.wellFormed_read w
  have hselects := selects_encode (row.read w)
  have hread := read_encode hwf
  rw [row.row_read] at hselects hread
  exact ⟨hwf, Row.eq_of_read_eq hselects hrow hread⟩

end Sys2Proof
end

section
/-! ### Illegal words (R84) -/

namespace Sys2Proof.Machine

/-- A word is illegal where its OP is no row's, or where it misses the match of the row whose OP it has (R84). -/
theorem decode_error_of_illegal {w : CmdWord}
    (h : opField w = 0x00#8 ∨ 0x0A ≤ (opField w).toNat ∨
      ∃ row : Row, opField w = row.opcode ∧ w &&& row.mask ≠ row.pattern) : ∃ why, decode w = .error why := by
  refine decode_eq_error fun row hrow => ?_
  have hop := Row.opField_of_selects hrow
  obtain hzero | hhigh | ⟨row', hop', hmiss⟩ := h
  · exact absurd (hop.symm.trans hzero) (by cases row <;> decide)
  · rw [hop] at hhigh
    exact absurd hhigh (by cases row <;> decide)
  · obtain rfl := Row.eq_of_opcode_eq (hop.symm.trans hop')
    exact hmiss (beq_iff_eq.1 hrow)

/-- Settles O5: an illegal word does not decode, and `finish` writes STATUS, ERR_IO and the BUSY that was 0 before. -/
theorem illegalWordCompletes : Obligations.IllegalWordCompletes := by
  intro s w rest hbusy hcmds hillegal
  obtain ⟨why, hdecode⟩ := decode_error_of_illegal hillegal
  rw [step_of_illegal hbusy hcmds hdecode]
  simp [finish, beginCommand, ← hbusy]

end Sys2Proof.Machine
end

section
/-! ### The frames a command sends (R88, R90) -/

namespace Sys2Proof.Machine

/-- The frames of a command are all of the ten forms (R88, R90). -/
theorem exec_legalFrames {i : Instr} {s t : State} (h : exec i s = .next t) :
    ∃ evs, t.ev = s.ev ++ evs ∧ ∀ e ∈ evs, e.legalFrame s.params := by
  cases hi : i.isPixel with
  | true =>
    obtain ⟨c, fb, rot, -, he⟩ := exec_pixelEffect hi s
    cases he.symm.trans h
    exact ⟨[], (List.append_nil _).symm, by simp⟩
  | false =>
    obtain ⟨-, -, he⟩ | ⟨_, _, s0, evs, n, out, hplan, htrace, he⟩ | ⟨_, _, s0, evs, n, hplan, hhung, he⟩ :=
      exec_panel hi s <;> cases he.symm.trans h
    · exact ⟨[], (List.append_nil _).symm, by simp⟩
    · exact ⟨evs, congrArg (· ++ evs) hplan.params_ev.2, htrace.legalFrame hplan.jobs_legal⟩
    · exact ⟨evs, congrArg (· ++ evs) hplan.params_ev.2, hhung.legalFrame hplan.jobs_legal⟩

/-- No form begins with ReadDisplay: each begins with its own command byte (R87, R88, R90). -/
theorem FrameForm.head?_ne_readDisplay {P : Params} {bytes : List Byte} (h : FrameForm P bytes) :
    bytes.head? ≠ some cmdReadDisplay := by
  obtain rfl | ⟨c, rfl⟩ | rfl | rfl | rfl | rfl | rfl | rfl | rfl | ⟨payload, -, rfl⟩ := h
  all_goals exact mt Option.some.inj (by decide)

/-- Settles O37: the frames are of the ten forms, and no form begins with 0x81. -/
theorem onlyTheTenFrameForms : Obligations.OnlyTheTenFrameForms := by
  intro i s t h
  obtain ⟨evs, hev, hlegal⟩ := exec_legalFrames h
  refine ⟨evs, hev, fun conn bytes answer hmem => ?_⟩
  have hform : FrameForm s.params bytes := hlegal _ hmem
  exact ⟨hform, hform.head?_ne_readDisplay⟩

end Sys2Proof.Machine
end

section
/-! ### What the assembler accepts (R86) -/

namespace Sys2Proof.Machine

/-- A coordinate outside its field is refused (R86). -/
theorem wellFormed_of_asmSetPixelColour {x y : Int} {r g b : Byte} {i : Instr}
    (h : asmSetPixelColour x y r g b = .ok i) : i.wellFormed = true := by
  unfold asmSetPixelColour at h
  split at h
  · next hfits =>
    cases h
    exact wellFormed_setPixel_iff.2 hfits
  · cases h

theorem wellFormed_of_asmSetPixel {x y r g b : Int} {i : Instr} (h : asmSetPixel x y r g b = .ok i) :
    i.wellFormed = true := by
  unfold asmSetPixel at h
  split at h
  · exact wellFormed_of_asmSetPixelColour h
  · cases h

theorem wellFormed_of_asmSetAll {r g b : Int} {i : Instr} (h : asmSetAll r g b = .ok i) : i.wellFormed = true := by
  unfold asmSetAll at h
  split at h <;> cases h
  rfl

/-- Every command a mnemonic's operands make is well formed: the shapes written here are the ones it accepts (R86). -/
theorem wellFormed_of_asmCommand {name : AsmName} {ops : List Operand} {i : Instr} (h : asmCommand name ops = .ok i) :
    i.wellFormed = true := by
  cases name with
  | setpixel =>
    match ops, h with
    | [.num _, .num _, .num _, .num _, .num _], h => exact wellFormed_of_asmSetPixel h
    | [.num _, .num _, .colour _ _ _], h => exact wellFormed_of_asmSetPixelColour h
  | unset =>
    match ops, h with
    | [.num _, .num _], h => exact wellFormed_of_asmSetPixelColour h
  | setall =>
    match ops, h with
    | [.num _, .num _, .num _], h => exact wellFormed_of_asmSetAll h
    | [.colour _ _ _], h => cases h; rfl
  | setrot =>
    match ops, h with
    | [.num deg], h =>
      unfold asmCommand at h
      dsimp only at h
      split at h
      · next hfits =>
        cases h
        exact wellFormed_setRotation_iff.2 hfits
      · cases h
  | setbright =>
    match ops, h with
    | [.num v], h =>
      unfold asmCommand at h
      dsimp only at h
      split at h <;> cases h
      rfl
  | clear | getshape | showName | init | shutdown | flush =>
    match ops, h with
    | [], h => cases h; rfl

/-- A line's command is one its mnemonic and operands make (R86). -/
theorem exists_asmCommand_of_assembleLine {line : List Char} {i : Instr} (h : assembleLine line = .ok (some i)) :
    ∃ name ops, asmCommand name ops = .ok i := by
  simp only [assembleLine] at h
  split at h
  · cases h
  · split at h
    · cases h
    · next name _ =>
      split at h
      · cases h
      · next ops _ =>
        split at h
        · next hcommand =>
          cases h
          exact ⟨name, ops, hcommand⟩
        · cases h

/-- Settles O53: what the assembler accepts is well formed, so its word decodes to it. -/
theorem assembledLinesDecode : Obligations.AssembledLinesDecode := by
  intro line i h
  obtain ⟨name, ops, hcommand⟩ := exists_asmCommand_of_assembleLine h
  have hwf := wellFormed_of_asmCommand hcommand
  exact ⟨hwf, decodeOfEncode i hwf⟩

end Sys2Proof.Machine
end

section
/-! ### Slots and the remap (R22, R110 to R113, R119 to R121) -/

namespace Sys2Proof.Machine

@[simp] theorem readSlot_writeSlot_same (fb : FrameBuffer) {i : Nat} (h : i < 119) (c : Rgb) :
    readSlot (writeSlot fb i c) i = c := by
  simp [readSlot, writeSlot, h]

theorem readSlot_writeSlot_of_ne (fb : FrameBuffer) {i j : Nat} (h : i ≠ j) (c : Rgb) :
    readSlot (writeSlot fb i c) j = readSlot fb j := by
  simp [readSlot, writeSlot, Vector.getElem?_setIfInBounds_ne h]

@[simp] theorem readSlot_fillSlots (c : Rgb) {i : Nat} (h : i < 119) : readSlot (fillSlots c) i = c := by
  simp [readSlot, fillSlots, h]

/-- Under SHAPE the first stage of the acceptance test entails the second (R119). -/
theorem inBounds_of_accept_shape {rot : Rotation} {x y : Int} (h : accept .shape rot x y = true) :
    inBounds (remap rot x y) = true := by
  rw [accept_shape_iff] at h
  rw [inBounds_iff]
  cases rot <;> simp only [shape, remap] at h ⊢ <;> omega

/-- Under SHAPE every accepted coordinate has a slot, the one the rotation formula gives (R112, R119). -/
theorem pixelSlot_shape {rot : Rotation} {x y : Int} (h : accept .shape rot x y = true) :
    pixelSlot .shape rot x y = some (remap rot x y).toNat :=
  pixelSlot_of_accepted h (inBounds_of_accept_shape h)

/-- Under SHAPE the base-7 digits of an index are its two coordinates up to reflection, so it determines both (R119). -/
theorem remap_injOn_shape {rot : Rotation} {x y x' y' : Int} (h : accept .shape rot x y = true)
    (h' : accept .shape rot x' y' = true) (heq : remap rot x y = remap rot x' y') : x = x' ∧ y = y' := by
  rw [accept_shape_iff] at h h'
  cases rot <;> simp only [shape, remap] at h h' heq <;> omega

/-- The coordinate that writes slot 7a + c (R120). -/
def inverseCoord (rot : Rotation) (a c : Int) : Int × Int :=
  match rot with
  | .deg0 => (a, c)
  | .deg90 => (c, 16 - a)
  | .deg180 => (16 - a, 6 - c)
  | .deg270 => (6 - c, a)

theorem accept_shape_inverseCoord (rot : Rotation) {a c : Int} (ha : 0 ≤ a ∧ a < 17) (hc : 0 ≤ c ∧ c < 7) :
    accept .shape rot (inverseCoord rot a c).1 (inverseCoord rot a c).2 = true := by
  rw [accept_shape_iff]
  cases rot <;> simp only [shape, inverseCoord] <;> omega

/-- The remap undoes the inverse map on all integers, not only on the slots. -/
theorem remap_inverseCoord (rot : Rotation) (a c : Int) :
    remap rot (inverseCoord rot a c).1 (inverseCoord rot a c).2 = a * 7 + c := by
  cases rot <;> simp only [remap, inverseCoord] <;> omega

/-- Every slot is reached under SHAPE: its column and its row give the coordinate (R119, R120). -/
theorem exists_coord_of_inBounds (rot : Rotation) {i : Int} (h : inBounds i = true) :
    ∃ x y, accept .shape rot x y = true ∧ remap rot x y = i := by
  rw [inBounds_iff] at h
  have haccept := accept_shape_inverseCoord rot (a := i / 7) (c := i % 7) (by omega) (by omega)
  have hremap := remap_inverseCoord rot (i / 7) (i % 7)
  exact ⟨_, _, haccept, by omega⟩

/-- The slots the coordinates accepted under FIXED write, once for each coordinate (R112). -/
def fixedSlots (rot : Rotation) : List Nat :=
  (List.range 17).flatMap fun (x : Nat) => (List.range 7).filterMap fun (y : Nat) => pixelSlot .fixed rot x y

/-- At a quarter turn the untransposed footprint meets the transposed one in a 7 by 7 square (R119). -/
theorem length_fixedSlots_of_quarterTurn {rot : Rotation} (h : rot = .deg90 ∨ rot = .deg270) :
    (fixedSlots rot).eraseDups.length = 49 := by
  obtain rfl | rfl := h <;> decide +kernel

/-- The index of slot 7 belongs to two coordinates: one in the footprint (a = 1, c = 0), and one a step outside it, where the
inverse map is taken at a = 0, c = 7 (R119). -/
theorem exists_indexOnly_alias (rot : Rotation) :
    ∃ x y x' y' : Int, accept .shape rot x y = false ∧ accept .shape rot x' y' = true ∧
      pixelSlot .indexOnly rot x y = pixelSlot .indexOnly rot x' y' := by
  have houtside : accept .shape rot (inverseCoord rot 0 7).1 (inverseCoord rot 0 7).2 = false := by
    cases rot <;> decide
  have hinside := accept_shape_inverseCoord rot (a := 1) (c := 0) (by decide) (by decide)
  exact ⟨_, _, _, _, houtside, hinside, by simp [pixelSlot, remap_inverseCoord]⟩

/-- Settles O11: in bounds and injective by the base-7 digits of an index, surjective by the inverse map, and the two failures
of the other domains. -/
theorem remapIsBijection : Obligations.RemapIsBijection := by
  intro rot
  exact ⟨fun _ _ => inBounds_of_accept_shape, fun _ _ _ _ => remap_injOn_shape, fun _ => exists_coord_of_inBounds rot,
    length_fixedSlots_of_quarterTurn, exists_indexOnly_alias rot⟩

/-- Settles O10: the four rotations. -/
theorem shapeTransposes : Obligations.ShapeTransposes := by
  intro rot
  cases rot <;> rfl

/-- Settles O12: each clause is the inverse map at one rotation. -/
theorem inverseMapsReachTheirSlot : Obligations.InverseMapsReachTheirSlot := by
  intro a c ha0 ha hc0 hc
  have key (rot : Rotation) := And.intro (accept_shape_inverseCoord rot ⟨ha0, ha⟩ ⟨hc0, hc⟩) (remap_inverseCoord rot a c)
  exact ⟨key .deg0, key .deg90, key .deg180, key .deg270⟩

/-- Settles O13: the formula of each rotation is linear, with its extremes at the corners of the presentable square. -/
theorem remapRange : Obligations.RemapRange := by
  intro rot x y hx hx' hy hy'
  cases rot <;> simp only [remap] <;> omega

/-- Quantisation is the bit field v[7:2] (R113). -/
theorem quantise_eq_extract (v : Byte) : quantise v = v.extractLsb' 2 6 := rfl

/-- Settles O14: the value of the bit field is the quotient by 4, which is below 64. -/
theorem quantisationTruncates : Obligations.QuantisationTruncates := by
  intro v
  have hv : v.toNat < 256 := v.isLt
  refine ⟨?_, quantise_eq_extract v⟩
  rw [quantise_eq_extract, BitVec.extractLsb'_toNat, Nat.shiftRight_eq_div_pow]
  omega

end Sys2Proof.Machine
end

section
/-! ### The pixel commands' next states (R114 to R118, R122) -/

namespace Sys2Proof.Machine

/-- SET_PIXEL with a slot writes it (R114). -/
theorem exec_setPixel_of_slot {s : State} {x y : Int} {k : Nat} (h : pixelSlot s.params.coordDomain s.rot x y = some k)
    (r g b : Byte) :
    exec (.setPixel x y r g b) s =
      .next { s with fb := writeSlot s.fb k (quantiseRgb r g b), status := 0#32, errIo := none, busy := false } := by
  simp [exec, execSetPixel, runCommand, h, finish, beginCommand]

/-- SET_PIXEL without a slot drops the write (R114). -/
theorem exec_setPixel_of_no_slot {s : State} {x y : Int} (h : pixelSlot s.params.coordDomain s.rot x y = none)
    (r g b : Byte) :
    exec (.setPixel x y r g b) s = .next { s with status := 0#32, errIo := none, busy := false } := by
  simp [exec, execSetPixel, runCommand, h, finish, beginCommand]

/-- SET_ALL fills FB (R115). -/
theorem exec_setAll (r g b : Byte) (s : State) :
    exec (.setAll r g b) s =
      .next { s with fb := fillSlots (quantiseRgb r g b), status := 0#32, errIo := none, busy := false } := by
  simp [exec, execSetAll, runCommand, finish, beginCommand]

/-- Black is the quantised colour (0, 0, 0), so CLEAR is SET_ALL(0, 0, 0) (R116). -/
theorem exec_clear_eq_exec_setAll (s : State) : exec .clear s = exec (.setAll 0 0 0) s := by
  have hblack : quantiseRgb 0 0 0 = Rgb.black := by decide
  simp only [exec, execClear, execSetAll, hblack]

/-- SET_ROTATION with a legal operand (R117). -/
theorem exec_setRotation_of_some {deg : Int} {rot : Rotation} (h : rotationOfDegrees deg = some rot) (s : State) :
    exec (.setRotation deg) s = .next { s with rot := rot, status := 0#32, errIo := none, busy := false } := by
  simp [exec, execSetRotation, runCommand, h, finish, beginCommand]

/-- SET_ROTATION with any other operand (R117). -/
theorem exec_setRotation_of_none {deg : Int} (h : rotationOfDegrees deg = none) (s : State) :
    exec (.setRotation deg) s = .next { s with status := 1#32, errIo := none, busy := false } := by
  simp [exec, execSetRotation, runCommand, h, finish, beginCommand]

/-- The STATUS word GET_SHAPE writes (R118). -/
theorem status_shape (rot : Rotation) :
    Completion.status (.shape (shape rot).1 (shape rot).2) =
      if rot = .deg90 ∨ rot = .deg270 then 0x11070000#32 else 0x07110000#32 := by
  cases rot <;> decide

/-- Settles O16: under SHAPE the formula's slot is the one written. -/
theorem setPixelReadsBack : Obligations.SetPixelReadsBack := by
  intro s t x y r g b hdom haccept h
  have hslot : pixelSlot s.params.coordDomain s.rot x y = some (remap s.rot x y).toNat := hdom ▸ pixelSlot_shape haccept
  cases (exec_setPixel_of_slot hslot r g b).symm.trans h
  exact ⟨readSlot_writeSlot_same _ (pixelSlot_lt hslot) _, fun j hj => readSlot_writeSlot_of_ne _ hj.symm _⟩

/-- Settles O17: with a slot, that slot alone is written; without one, none is. -/
theorem setPixelWritesAtMostOneSlot : Obligations.SetPixelWritesAtMostOneSlot := by
  intro s t x y r g b h
  cases hslot : pixelSlot s.params.coordDomain s.rot x y with
  | some k =>
    cases (exec_setPixel_of_slot hslot r g b).symm.trans h
    have hk : k < 119 := pixelSlot_lt hslot
    refine ⟨fun j hj => ?_, fun j hj => readSlot_writeSlot_of_ne _ (fun hkj => hj (congrArg some hkj)) _⟩
    cases hj
    exact ⟨hk, readSlot_writeSlot_same _ hk _⟩
  | none =>
    cases (exec_setPixel_of_no_slot hslot r g b).symm.trans h
    exact ⟨fun j hj => absurd hj nofun, fun j _ => rfl⟩

/-- Settles O22: whatever a pixel command's effect is, it reaches `finish` with only FB and ROT written. -/
theorem pixelCommandsCompleteWithoutIo : Obligations.PixelCommandsCompleteWithoutIo := by
  intro i s hi
  obtain ⟨c, fb, rot, -, he⟩ := exec_pixelEffect hi s
  exact ⟨_, he, rfl, rfl, rfl, rfl, rfl, rfl, rfl⟩

/-- Settles O15: the two stages of the acceptance test decide whether there is a slot. -/
theorem setPixelCompletes : Obligations.SetPixelCompletes := by
  intro s x y r g b
  exact ⟨fun haccept hbounds => exec_setPixel_of_slot (pixelSlot_of_accepted haccept hbounds) r g b,
    fun hdropped => exec_setPixel_of_no_slot (pixelSlot_of_dropped hdropped) r g b⟩

/-- Settles O18: FB is filled, and nothing else but STATUS, ERR_IO and BUSY is written. -/
theorem setAllFillsEverySlot : Obligations.SetAllFillsEverySlot := by
  intro s r g b
  exact ⟨_, exec_setAll r g b s, fun i hi => readSlot_fillSlots _ hi, rfl⟩

/-- Settles O19: as SET_ALL(0, 0, 0). -/
theorem clearIsSetAllBlack : Obligations.ClearIsSetAllBlack := by
  intro s
  have hclear := exec_clear_eq_exec_setAll s
  exact ⟨hclear, _, hclear.trans (exec_setAll 0 0 0 s), fun i hi => readSlot_fillSlots _ hi, rfl⟩

/-- Settles O20: the four legal degrees have their rotation, every other integer has none. -/
theorem setRotationCompletes : Obligations.SetRotationCompletes := by
  intro s
  refine ⟨exec_setRotation_of_some rfl s, exec_setRotation_of_some rfl s, exec_setRotation_of_some rfl s,
    exec_setRotation_of_some rfl s, fun deg h0 h90 h180 h270 => ?_⟩
  have hnone : rotationOfDegrees deg = none := by simp [rotationOfDegrees, h0, h90, h180, h270]
  exact exec_setRotation_of_none hnone s

/-- Settles O21: the footprint's STATUS word at each rotation. -/
theorem getShapeReports : Obligations.GetShapeReports := by
  intro s
  rw [← status_shape]
  rfl

end Sys2Proof.Machine
end

section
/-! ### The repack of the transfer buffer (R62, R63, R150, R153, R154) -/

namespace Sys2Proof.Machine

/-- A list of writes carried out in the list's order (R11). -/
def Memory.writeAll (m : Memory) (ws : List Host.Cell) : Memory := ws.foldl (fun m w => m.write w.1 w.2) m

@[simp] theorem Memory.writeAll_nil (m : Memory) : m.writeAll [] = m := rfl

@[simp] theorem Memory.writeAll_cons (m : Memory) (w : Host.Cell) (ws : List Host.Cell) :
    m.writeAll (w :: ws) = (m.write w.1 w.2).writeAll ws := rfl

/-- An offset none of the writes addresses keeps its byte. -/
theorem Memory.read_writeAll_of_notMem {m : Memory} (hm : m.Pairwise fun c d => c.1 < d.1) {ws : List Host.Cell} {a : Nat}
    (ha : a ∉ ws.map Prod.fst) : (m.writeAll ws).read a = m.read a := by
  induction ws generalizing m with
  | nil => rfl
  | cons w ws ih =>
    obtain ⟨hne, hrest⟩ : a ≠ w.1 ∧ a ∉ ws.map Prod.fst := by simpa only [List.map_cons, List.mem_cons, not_or] using ha
    rw [writeAll_cons, ih (write_sorted hm _ _) hrest, read_write hm, if_neg hne]

/-- Where the writes' offsets are distinct, each offset reads as the byte written there. -/
theorem Memory.read_writeAll_of_mem {m : Memory} (hm : m.Pairwise fun c d => c.1 < d.1) {ws : List Host.Cell}
    (hws : (ws.map Prod.fst).Nodup) {w : Host.Cell} (hw : w ∈ ws) : (m.writeAll ws).read w.1 = w.2 := by
  induction ws generalizing m with
  | nil => cases hw
  | cons w' ws ih =>
    obtain ⟨hnew, hrest⟩ := List.nodup_cons.1 hws
    obtain rfl | hw := List.mem_cons.1 hw
    · rw [writeAll_cons, read_writeAll_of_notMem (write_sorted hm _ _) hnew, read_write hm, if_pos rfl]
    · exact ih (write_sorted hm _ _) hrest hw

/-- The three writes of one slot (R150). -/
def slotWrites (e : LutEntry) (c : Rgb) : List Host.Cell :=
  [(e.ro.val, c.r.setWidth 8), (e.go.val, c.g.setWidth 8), (e.bo.val, c.b.setWidth 8)]

/-- The writes of a repack, in its order (R150). -/
def repackWrites (lut : Lut) (fb : FrameBuffer) : List Host.Cell :=
  (lut.toList.zip fb.toList).flatMap fun p => slotWrites p.1 p.2

theorem repackSlots_eq_writeAll (l : List (LutEntry × Rgb)) (tb : Memory) :
    repackSlots l tb = tb.writeAll (l.flatMap fun p => slotWrites p.1 p.2) := by
  induction l generalizing tb with
  | nil => rfl
  | cons p rest ih => exact ih _

theorem repack_eq_writeAll (lut : Lut) (fb : FrameBuffer) (tb : Memory) :
    repack lut fb tb = tb.writeAll (repackWrites lut fb) :=
  repackSlots_eq_writeAll _ tb

/-- The repack writes every offset of the table, in the table's order (R28, R150). -/
theorem repackWrites_offsets (lut : Lut) (fb : FrameBuffer) : (repackWrites lut fb).map Prod.fst = lut.offsets := by
  have hfst : (lut.toList.zip fb.toList).map Prod.fst = lut.toList := List.map_fst_zip (by simp)
  calc (repackWrites lut fb).map Prod.fst
      = ((lut.toList.zip fb.toList).map Prod.fst).flatMap fun e => [e.ro.val, e.go.val, e.bo.val] := by
        simp [repackWrites, slotWrites, List.map_flatMap, List.flatMap_map]
    _ = lut.offsets := by rw [hfst, Lut.offsets]

/-- The three writes of a slot are among the repack's (R150). -/
theorem slotWrites_subset_repackWrites (lut : Lut) (fb : FrameBuffer) (i : Fin 119) :
    slotWrites lut[i] fb[i] ⊆ repackWrites lut fb := by
  have hslot : (lut[i], fb[i]) ∈ lut.toList.zip fb.toList :=
    List.mem_iff_getElem.2 ⟨i, by simp, by simp⟩
  exact fun w hw => List.mem_flatMap.2 ⟨_, hslot, hw⟩

/-- After a repack the offset of each of its writes holds the byte written (R154). -/
theorem read_repack_of_mem {lut : Lut} (hlut : lut.Distinct) (fb : FrameBuffer) {tb : Memory} (htb : tb.wf) {w : Host.Cell}
    (hw : w ∈ repackWrites lut fb) : (repack lut fb tb).read w.1 = w.2 := by
  rw [repack_eq_writeAll]
  exact Memory.read_writeAll_of_mem htb.1 (by rwa [repackWrites_offsets]) hw

/-- The repack leaves every offset in no LUT entry (R62, R150). -/
theorem read_repack_of_notMem {lut : Lut} (fb : FrameBuffer) {tb : Memory} (htb : tb.wf) {a : Nat}
    (ha : a ∉ lut.offsets) : (repack lut fb tb).read a = tb.read a := by
  rw [repack_eq_writeAll]
  exact Memory.read_writeAll_of_notMem htb.1 (by rwa [repackWrites_offsets])

/-- A second repack of the same FB changes no byte (R153). -/
theorem repack_repack {lut : Lut} (hlut : lut.Distinct) (fb : FrameBuffer) {tb : Memory} (htb : tb.wf) :
    repack lut fb (repack lut fb tb) = repack lut fb tb := by
  have hwf := repack_wf lut fb htb
  refine Memory.eq_of_read_eq (repack_wf lut fb hwf) hwf fun a => ?_
  by_cases ha : a ∈ lut.offsets
  · rw [← repackWrites_offsets lut fb] at ha
    obtain ⟨w, hw, rfl⟩ := List.mem_map.1 ha
    rw [read_repack_of_mem hlut fb hwf hw, read_repack_of_mem hlut fb htb hw]
  · exact read_repack_of_notMem fb hwf ha

/-- A slice's byte at `k` is the buffer's at `a + k` (R11). -/
theorem Memory.getElem?_slice (m : Memory) (a : Nat) {n k : Nat} (h : k < n) :
    (m.slice a n)[k]? = some (m.read (a + k)) := by
  simp [slice, h]

end Sys2Proof.Machine
end

section
/-! ### What the panel commands send and leave (R152, R174, R176, R177) -/

namespace Sys2Proof.Machine

/-- A panel command sends its frames with the host's words and the platform it began with (R34, R67). -/
theorem Plan.inputs {s s0 : State} {i : Instr} {abort : Bool} {jobs : List Job} (h : Plan s i abort jobs s0) :
    s0.cmds = s.cmds ∧ s0.platform = s.platform := by
  cases h <;> exact ⟨rfl, rfl⟩

/-- A panel command accepts no further word (R34). -/
theorem exec_panel_cmds {i : Instr} (hi : i.isPixel = false) {s t : State} (h : exec i s = .next t) :
    t.cmds = s.cmds := by
  obtain ⟨-, -, he⟩ | ⟨_, _, s0, evs, n, out, hplan, -, he⟩ | ⟨_, _, s0, evs, n, hplan, -, he⟩ := exec_panel hi s <;>
    cases he.symm.trans h
  · rfl
  all_goals exact hplan.inputs.1

/-- SHOW in READY leaves the repacked buffer, however its transfers end (R152). -/
theorem exec_showPanels_tb {s t : State} (hp : s.phase = .ready) (h : exec .showPanels s = .next t) :
    t.tb = repack s.params.lut s.fb s.tb := by
  obtain ⟨hu, -, -⟩ | ⟨_, _, s0, evs, n, out, hplan, -, he⟩ | ⟨_, _, s0, evs, n, hplan, -, he⟩ :=
    exec_panel (i := .showPanels) rfl s
  · rw [hp] at hu
    cases hu
  all_goals
    cases he.symm.trans h
    cases hplan
    rfl

/-- SHOW leaves TB in UNINIT (R30). -/
theorem exec_showPanels_tb_uninit {s t : State} (hp : s.phase = .uninit) (h : exec .showPanels s = .next t) :
    t.tb = s.tb := by
  cases (exec_uninit (.inl rfl) hp).symm.trans h
  rfl

/-- SHOW has one frame for each panel, its half of the buffer (R151, R152). -/
theorem showJobs_eq (P : Params) (tb : Memory) :
    showJobs P tb =
      [⟨.a, 0, frWriteDisplay P (panelPayload tb .a), false⟩, ⟨.b, 0, frWriteDisplay P (panelPayload tb .b), false⟩] := rfl

/-- Settles O24: the repack's writes are the slots' channels, and LUT-DISTINCT keeps each of them. -/
theorem showRepacksTheFrameBuffer : Obligations.ShowRepacksTheFrameBuffer := by
  intro s t hs hp h
  obtain ⟨hwf, -, hzero⟩ := hs.tb
  rw [exec_showPanels_tb hp h]
  refine ⟨fun i => ?_, fun a ha => ?_, fun p k hk => Memory.getElem?_slice _ _ hk⟩
  · have hread := fun w hw => read_repack_of_mem hs.params.1 s.fb hwf (w := w)
      (slotWrites_subset_repackWrites s.params.lut s.fb i hw)
    simpa [slotWrites] using hread
  · rw [read_repack_of_notMem s.fb hwf ha, hzero a ha]

/-- Settles O35: SHOW writes TB at the table's offsets, the other two commands no field of these. -/
theorem panelCommandsFrame : Obligations.PanelCommandsFrame := by
  intro i s t hi h
  have hpanel : i.isPixel = false ∧ i ≠ .init := by
    obtain rfl | ⟨br, rfl⟩ | rfl := hi <;> exact ⟨rfl, nofun⟩
  obtain ⟨hfb, hrot, hphase, htb⟩ := exec_panel_unchanged hpanel.1 hpanel.2 h
  refine ⟨hfb, hrot, hphase, (exec_appends h).2, exec_panel_cmds hpanel.1 h, fun hwf a ha => ?_, fun hne a => ?_⟩
  · by_cases hshow : i = .showPanels
    · subst hshow
      cases hp : s.phase with
      | ready => rw [exec_showPanels_tb hp h, read_repack_of_notMem s.fb hwf ha]
      | uninit => rw [exec_showPanels_tb_uninit hp h]
    · rw [htb hshow]
  · rw [htb hne]

/-- Settles O23: the sequence of SHOW's two frames with every call answered Ok. -/
theorem showCompletes : Obligations.ShowCompletes := by
  intro s hp hok
  rw [exec_showPanels_ready hp, runJobs_allOk _ _ _ _ (by exact hok)]
  simp only [Run.bind_done, Run.close_done, Completion.ofFailure, finish, status_ok, errIo_ok]
  rfl

end Sys2Proof.Machine
end


section
/-! ### The events the platform's answers decide (R67, R152, R170, R174, R221) -/

namespace Sys2Proof.Machine

/-- Whether the transfer whose first call is the n-th from now has a call that is never answered (R221). -/
def Platform.hangsAt (pl : Platform) (n : Nat) : Bool :=
  match pl.answer n, pl.answer (n + 1), pl.answer (n + 2) with
  | .never, _, _ => true
  | .ok, .never, _ => true
  | .ok, _, .never => true
  | _, _, _ => false

@[simp] theorem Platform.hangsAt_advanceBy (pl : Platform) (m n : Nat) :
    (pl.advanceBy m).hangsAt n = pl.hangsAt (m + n) := by
  simp [Platform.hangsAt, Nat.add_assoc]

/-- A transfer with a failure to report returns (R171, R221). -/
theorem Platform.hangsAt_of_failureAt {pl : Platform} {n : Nat} {failure : XferStep × IOError}
    (h : pl.failureAt n = some failure) : pl.hangsAt n = false := by
  revert h
  simp only [failureAt, hangsAt]
  split <;> simp_all

theorem Platform.callsAt_le (pl : Platform) (n : Nat) : pl.callsAt n ≤ 3 := by
  unfold callsAt
  split <;> decide

/-- Whether a part of a body hangs (R221). -/
def Run.hangs {α : Type} : Run α → Bool
  | .done _ _ => false
  | .hung _ => true

/-- A transfer hangs exactly where its answers say so (R221). -/
theorem hangs_xfer (p : Panel) (frame : List Byte) (s : State) : (xfer p frame s).hangs = s.platform.hangsAt 0 := by
  obtain ⟨e, h0, h⟩ | ⟨h0, h⟩ | ⟨h0, h1, h⟩ | ⟨h0, h1, h2, h⟩ | ⟨h0, h1, h2, h⟩ := xfer_cases p frame s <;> rw [h]
  · simp [Run.hangs, Platform.hangsAt, h0]
  · simp [Run.hangs, Platform.hangsAt, h0]
  · simp [Run.hangs, Platform.hangsAt, h0, h1]
  · simp [Run.hangs, Platform.hangsAt, h0, h2]
  · simp [Run.hangs, Platform.hangsAt, h0, h1, h2]

/-- A transfer as a function of the platform's answers: its events, and its result where it returns (R170, R171, R221). -/
theorem xfer_eq (p : Panel) (frame : List Byte) (s : State) :
    xfer p frame s =
      bif s.platform.hangsAt 0 then
        .hung (s.logged (s.platform.eventsAt s.params p frame 0) (s.platform.callsAt 0))
      else
        .done (s.platform.failureAt 0) (s.logged (s.platform.eventsAt s.params p frame 0) (s.platform.callsAt 0)) := by
  rw [← hangs_xfer p frame s]
  obtain h | ⟨h, -⟩ := xfer_at p frame s <;> rw [h] <;> rfl

/-- The events of a sequence of frames under its failure policy, the first call being the n-th from now: a transfer that hangs
is the last, and so is one that fails where the sequence aborts (R152, R176, R177, R221). -/
def sentEvents (P : Params) (pl : Platform) (abort : Bool) : List Job → Nat → List Event
  | [], _ => []
  | job :: rest, n =>
    pl.eventsAt P job.panel job.bytes n ++
      if pl.hangsAt n || (abort && (pl.failureAt n).isSome) then []
      else settleEvents P job ++ sentEvents P pl abort rest (n + pl.callsAt n)

@[simp] theorem sentEvents_advanceBy (P : Params) (pl : Platform) (abort : Bool) (jobs : List Job) (m n : Nat) :
    sentEvents P (pl.advanceBy m) abort jobs n = sentEvents P pl abort jobs (m + n) := by
  induction jobs generalizing n with
  | nil => rfl
  | cons job rest ih => simp [sentEvents, ih, Nat.add_assoc]

/-- Three calls a frame decide the events of a sequence. -/
theorem sentEvents_congr (P : Params) {pl pl' : Platform} (abort : Bool) (jobs : List Job) (n : Nat)
    (h : ∀ k < n + 3 * jobs.length, pl'.answer k = pl.answer k) :
    sentEvents P pl' abort jobs n = sentEvents P pl abort jobs n := by
  induction jobs generalizing n with
  | nil => rfl
  | cons job rest ih =>
    rw [List.length_cons] at h
    have h0 := h n (by omega)
    have h1 := h (n + 1) (by omega)
    have h2 := h (n + 2) (by omega)
    have hevents : pl'.eventsAt P job.panel job.bytes n = pl.eventsAt P job.panel job.bytes n := by
      simp only [Platform.eventsAt, Platform.callsAt, h0, h1, h2]
    have hcalls : pl'.callsAt n = pl.callsAt n := by simp only [Platform.callsAt, h0, h1]
    have hhangs : pl'.hangsAt n = pl.hangsAt n := by simp only [Platform.hangsAt, h0, h1, h2]
    have hfails : pl'.failureAt n = pl.failureAt n := by simp only [Platform.failureAt, h0, h1, h2]
    have hle := pl.callsAt_le n
    rw [sentEvents, sentEvents, hevents, hcalls, hhangs, hfails, ih _ fun k hk => h k (by omega)]

/-- A sequence of frames appends the events its answers decide, whether it returns or hangs. -/
theorem runJobs_state_ev (abort : Bool) (jobs : List Job) (first : Option Failure) (s : State) :
    (runJobs abort jobs first s).state.ev = s.ev ++ sentEvents s.params s.platform abort jobs 0 := by
  induction jobs generalizing first s with
  | nil => simp [runJobs, Run.state, sentEvents]
  | cons job rest ih =>
    rw [runJobs_cons, xfer_eq]
    cases hh : s.platform.hangsAt 0 with
    | true => simp [sentEvents, hh, Run.state]
    | false =>
      simp only [cond_false, Run.bind_done, settleEvents_eq]
      cases hf : s.platform.failureAt 0 with
      | none => simp [ih, sentEvents, hh, hf]
      | some failure =>
        cases abort with
        | true => simp [sentEvents, hh, hf, Run.state]
        | false => simp [ih, sentEvents, hh]

/-- A sequence that aborts ends at a failing first frame (R152, R176). -/
theorem runJobs_abort_of_failureAt {job : Job} {rest : List Job} {first : Option Failure} {s : State} {xferStep : XferStep}
    {e : IOError} (h : s.platform.failureAt 0 = some (xferStep, e)) :
    runJobs true (job :: rest) first s = .done (first.or (some (job.failure xferStep e)))
      (s.logged (s.platform.eventsAt s.params job.panel job.bytes 0) (s.platform.callsAt 0)) := by
  rw [runJobs_cons, xfer_eq, Platform.hangsAt_of_failureAt h, h]
  rfl

/-- What a command does after its frames adds no event where its continuation adds none. -/
theorem Run.close_bind_ev {α : Type} (r : Run α) {next : α → State → Run Completion}
    (h : ∀ v s, (next v s).close.ev = s.ev) : (r.bind next).close.ev = r.state.ev := by
  cases r with
  | done v s => exact h v s
  | hung s => rfl

/-- The failure policy of a command: SEQ_ABORT for INIT and SHUTDOWN, SHOW_SHORT_CIRCUIT otherwise (R152, R174, R176, R177). -/
def abortPolicy (P : Params) : Instr → Bool
  | .init | .shutdown => P.seqAbort
  | _ => P.showShortCircuit

/-- A panel command's plan is its policy and its frames. -/
theorem Plan.policy_jobs {s s0 : State} {i : Instr} {abort : Bool} {jobs : List Job} (h : Plan s i abort jobs s0) :
    abort = abortPolicy s.params i ∧ jobs = commandJobs i s := by
  cases h with
  | init => exact ⟨rfl, rfl⟩
  | showPanels hp | setBrightness _ hp | shutdown hp => exact ⟨rfl, by simp [commandJobs, hp]⟩

/-- A panel command other than INIT completes with the outcome of its frames (R152, R174, R177). -/
theorem Plan.exec_eq {s s0 : State} {i : Instr} {abort : Bool} {jobs : List Job} (h : Plan s i abort jobs s0)
    (hi : i ≠ .init) :
    exec i s = .next ((runJobs abort jobs none s0).bind fun first s1 => .done (.ofFailure first) s1).close := by
  cases h with
  | showPanels hp => exact exec_showPanels_ready hp
  | setBrightness br hp => exact exec_setBrightness_ready br hp
  | shutdown hp => exact exec_shutdown_ready hp
  | init => exact absurd rfl hi

/-- A panel command appends the events of its frames. -/
theorem Plan.exec_ev {s s0 t : State} {i : Instr} {abort : Bool} {jobs : List Job} (h : Plan s i abort jobs s0)
    (he : exec i s = .next t) : t.ev = s.ev ++ sentEvents s.params s.platform abort jobs 0 := by
  have hsent := runJobs_state_ev abort jobs none s0
  rw [h.params_ev.1, h.params_ev.2, h.inputs.2] at hsent
  by_cases hi : i = .init
  · subst hi
    rw [exec_init_eq] at he
    cases h
    cases he
    refine (Run.close_bind_ev _ fun first s1 => ?_).trans hsent
    cases first <;> rfl
  · rw [h.exec_eq hi] at he
    cases he
    exact (Run.close_bind_ev _ fun _ _ => rfl).trans hsent

/-- The three commands that check PHASE have no frames in UNINIT, and INIT has its own (R30). -/
theorem commandJobs_uninit {i : Instr} (hi : i ≠ .init) {s : State} (h : s.phase = .uninit) : commandJobs i s = [] := by
  cases i with
  | init => exact absurd rfl hi
  | setPixel | setAll | clear | setRotation | getShape | showPanels | setBrightness | shutdown => simp [commandJobs, h]

theorem commandJobs_pixel {i : Instr} (hi : i.isPixel = true) (s : State) : commandJobs i s = [] := by
  cases i with
  | setPixel | setAll | clear | setRotation | getShape => rfl
  | showPanels | setBrightness | init | shutdown => cases hi

/-- Every command appends the events of its frames under its policy, and none where it has no frames. -/
theorem exec_ev {i : Instr} {s t : State} (h : exec i s = .next t) :
    t.ev = s.ev ++ sentEvents s.params s.platform (abortPolicy s.params i) (commandJobs i s) 0 := by
  cases hi : i.isPixel with
  | true =>
    obtain ⟨c, fb, rot, -, he⟩ := exec_pixelEffect hi s
    cases he.symm.trans h
    simp [commandJobs_pixel hi, sentEvents]
  | false =>
    have sent : ∀ {abort jobs s0}, Plan s i abort jobs s0 →
        t.ev = s.ev ++ sentEvents s.params s.platform (abortPolicy s.params i) (commandJobs i s) 0 := by
      intro abort jobs s0 hplan
      obtain ⟨rfl, rfl⟩ := hplan.policy_jobs
      exact hplan.exec_ev h
    obtain ⟨hp, hne, he⟩ | ⟨_, _, _, _, _, _, hplan, -, -⟩ | ⟨_, _, _, _, _, hplan, -, -⟩ := exec_panel hi s
    · cases he.symm.trans h
      simp [commandJobs_uninit hne hp, sentEvents]
    · exact sent hplan
    · exact sent hplan

/-- A panel command other than INIT that completes reports the first failure of its frames (R213, R214). -/
theorem Plan.exec_reports {s s0 t : State} {i : Instr} {abort : Bool} {jobs : List Job} (h : Plan s i abort jobs s0)
    (hi : i ≠ .init) (he : exec i s = .next t) (hbusy : t.busy = false) :
    t.status = (Completion.ofFailure (sequenceFailure s.platform jobs 0)).status ∧
      t.errIo = (Completion.ofFailure (sequenceFailure s.platform jobs 0)).errIo := by
  rw [h.exec_eq hi] at he
  obtain ⟨evs, n, out, hr, -⟩ | ⟨evs, n, hr, -⟩ := runJobs_trace abort jobs none s0 <;> rw [hr] at he <;> cases he
  · have hout := runJobs_failure hr
    rw [Option.none_or, h.inputs.2] at hout
    exact hout ▸ ⟨rfl, rfl⟩
  · exact absurd (h.busy.symm.trans hbusy) (by simp)

theorem exec_total (i : Instr) (s : State) : ∃ t, exec i s = .next t := by
  cases i <;> exact ⟨_, rfl⟩

/-- SHOW alone has frames that FB decides (R156). -/
theorem commandJobs_fb {i : Instr} (hi : i ≠ .showPanels) (s : State) (fb : FrameBuffer) :
    commandJobs i { s with fb := fb } = commandJobs i s := by
  cases i with
  | showPanels => exact absurd rfl hi
  | setPixel | setAll | clear | setRotation | getShape | init => rfl
  | setBrightness | shutdown => cases hp : s.phase <;> simp [commandJobs, hp]

/-- Settles O52: a command's events come from its frames, the parameters and the platform's answers. -/
theorem onlyShowSendsTheFrameBuffer : Obligations.OnlyShowSendsTheFrameBuffer := by
  intro i s t fb hi h
  obtain ⟨t', h'⟩ := exec_total i { s with fb := fb }
  exact ⟨t', h', by rw [exec_ev h', commandJobs_fb hi, exec_ev h]⟩

/-- Settles O25: the second repack changes nothing, so the second SHOW has the first one's frames. -/
theorem showIsIdempotent : Obligations.ShowIsIdempotent := by
  intro s t u v hs hp h hparams hfb htb hpu h'
  have hagain : repack s.params.lut u.fb u.tb = repack s.params.lut s.fb s.tb := by
    rw [hfb, htb, exec_showPanels_tb hp h, repack_repack hs.params.1 s.fb hs.tb.1]
  refine ⟨by rw [exec_showPanels_tb hpu h', hparams, hagain, exec_showPanels_tb hp h], fun hanswers => ?_⟩
  have hjobs : commandJobs .showPanels u = commandJobs .showPanels s := by
    simp only [commandJobs, hp, hpu, hparams, hagain]
  refine ⟨_, exec_ev h, ?_⟩
  rw [exec_ev h', hjobs, hparams, sentEvents_congr s.params _ _ 0 (pl := s.platform)]
  simpa [commandJobs, hp, showJobs_eq] using hanswers

/-- STATUS of a failure of panel A's frame 0 (R31, R213). -/
theorem status_transportError_a (xferStep : XferStep) (e : IOError) :
    Completion.status (.transportError ⟨.a, xferStep, 0, e⟩) = BitVec.ofNat 32 (2 + 32 * xferStep.code.toNat) := by
  simp only [Completion.status, Completion.code]
  cases xferStep <;> decide

/-- SHOW's and SET_BRIGHTNESS's plan in READY: under SHOW_SHORT_CIRCUIT, one frame to panel A and one to panel B (R152,
R174). -/
theorem exists_plan_of_frame {i : Instr} {s : State} {frame : Panel → List Byte}
    (hi : i = .showPanels ∧ frame = (fun p => frWriteDisplay s.params (panelPayload (repack s.params.lut s.fb s.tb) p)) ∨
      ∃ br, i = .setBrightness br ∧ frame = fun _ => frBright s.params (clampBrightness br))
    (hp : s.phase = .ready) :
    ∃ s0, Plan s i s.params.showShortCircuit [⟨.a, 0, frame .a, false⟩, ⟨.b, 0, frame .b, false⟩] s0 := by
  obtain ⟨rfl, rfl⟩ | ⟨br, rfl, rfl⟩ := hi
  · exact ⟨_, .showPanels hp⟩
  · exact ⟨_, .setBrightness br hp⟩

/-- Settles O26: panel A's failing transfer ends the sequence of two frames exactly under SHOW_SHORT_CIRCUIT, and is its first
failure. -/
theorem shortCircuitDecidesPanelB : Obligations.ShortCircuitDecidesPanelB := by
  intro i s t frame xferStep e hi hp hfail h
  obtain ⟨s0, hplan⟩ := exists_plan_of_frame hi hp
  have hne : i ≠ .init := by obtain ⟨rfl, -⟩ | ⟨br, rfl, -⟩ := hi <;> nofun
  have hev := hplan.exec_ev h
  have hreport : t.busy = false → t.status = BitVec.ofNat 32 (2 + 32 * xferStep.code.toNat) ∧ t.errIo = some e := by
    intro hbusy
    have := hplan.exec_reports hne h hbusy
    simpa [sequenceFailure, hfail, Completion.ofFailure, status_transportError_a] using this
  refine ⟨fun habort => ?_, fun habort => ⟨?_, hreport⟩⟩ <;> rw [habort] at hplan hev
  · have hbusy : t.busy = false := by
      rw [hplan.exec_eq hne, runJobs_abort_of_failureAt (by rwa [hplan.inputs.2])] at h
      cases h
      rfl
    obtain ⟨hstatus, herr⟩ := hreport hbusy
    exact ⟨by simpa [sentEvents, hfail] using hev, hstatus, herr, hbusy⟩
  · simpa [sentEvents, settleEvents, Platform.hangsAt_of_failureAt hfail] using hev

end Sys2Proof.Machine
end

section
/-! ### How the panel commands complete (R170, R174, R176, R177) -/

namespace Sys2Proof.Machine

/-- Every panel command ends with the outcome of its frames, INIT with its PHASE beside it (R152, R174, R176, R177). -/
theorem Plan.exec_eq_close {s s0 : State} {i : Instr} {abort : Bool} {jobs : List Job} (h : Plan s i abort jobs s0) :
    exec i s = .next ((runJobs abort jobs none s0).bind fun out s1 =>
      .done (.ofFailure out) { s1 with phase := phaseAfter i out s1.phase }).close := by
  by_cases hi : i = .init
  · subst hi
    cases h
    rw [exec_init_eq]
    congr 3
    funext out s1
    cases out <;> rfl
  · simpa [hi] using h.exec_eq hi

/-- A panel command that completes reports the first failure of its frames, which decides INIT's PHASE (R176, R213, R214). -/
theorem Plan.exec_completed {s s0 t : State} {i : Instr} {abort : Bool} {jobs : List Job} (h : Plan s i abort jobs s0)
    (he : exec i s = .next t) (hbusy : t.busy = false) :
    ∃ evs n, runJobs abort jobs none s0 = .done (sequenceFailure s.platform jobs 0) (s0.logged evs n) ∧
      t = finish (.ofFailure (sequenceFailure s.platform jobs 0))
        { s0.logged evs n with phase := phaseAfter i (sequenceFailure s.platform jobs 0) s0.phase } := by
  rw [h.exec_eq_close] at he
  obtain ⟨evs, n, out, hr, -⟩ | ⟨evs, n, hr, -⟩ := runJobs_trace abort jobs none s0
  · have hout := runJobs_failure hr
    rw [Option.none_or, h.inputs.2] at hout
    subst hout
    rw [hr] at he
    cases he
    exact ⟨_, _, hr, rfl⟩
  · rw [hr] at he
    cases he
    exact absurd (h.busy.symm.trans hbusy) (by simp)

/-- A panel command whose calls are all answered Ok sends every frame and completes with OK (R152, R174, R176, R177). -/
theorem Plan.exec_allOk {s s0 : State} {i : Instr} {abort : Bool} {jobs : List Job} (h : Plan s i abort jobs s0)
    (hok : s.platform.AllOk (3 * jobs.length)) :
    exec i s = .next (finish .ok { s0.logged (okEvents s.params jobs) (3 * jobs.length) with
      phase := phaseAfter i none s0.phase }) := by
  rw [h.exec_eq_close, runJobs_allOk abort jobs none s0 (by rwa [h.inputs.2]), h.params_ev.1]
  rfl

/-- Settles O27: the sequence of two brightness frames with every call answered Ok. -/
theorem setBrightnessCompletes : Obligations.SetBrightnessCompletes := by
  intro s br hp hok
  refine ⟨?_, fun hdefault => by simp [hdefault]⟩
  rw [(Plan.setBrightness br hp).exec_allOk hok, finish, status_ok, errIo_ok]
  rfl

/-- Settles O28: the sequence of INIT's sixteen frames with every call answered Ok. -/
theorem initCompletes : Obligations.InitCompletes := by
  intro s hok
  refine ⟨_, _, ?_, rfl, rfl, rfl, fun hdefault => by simp [hdefault]⟩
  rw [Plan.init.exec_allOk hok, finish, status_ok, errIo_ok, List.append_assoc]
  rfl

/-- Settles O29: the sequence of SHUTDOWN's six frames with every call answered Ok. -/
theorem shutdownCompletes : Obligations.ShutdownCompletes := by
  intro s hp hok
  rw [(Plan.shutdown hp).exec_allOk hok, finish, status_ok, errIo_ok]
  rfl

/-- Settles O32: INIT sends its frames from the construction state, and sending frames writes only EV. -/
theorem initKeepsConstructionState : Obligations.InitKeepsConstructionState := by
  intro s t h
  obtain ⟨-, hne, -⟩ | ⟨_, _, s0, evs, n, out, hplan, -, he⟩ | ⟨_, _, s0, evs, n, hplan, -, he⟩ :=
    exec_panel (i := .init) rfl s
  · exact absurd rfl hne
  all_goals
    cases he.symm.trans h
    cases hplan
    exact ⟨fun _ hi => readSlot_fillSlots _ hi, fun _ => rfl, rfl, rfl, rfl⟩

/-- Settles O39: the select's answer decides between the two. -/
theorem transferReleasesThePin : Obligations.TransferReleasesThePin := by
  intro p frame s t r h
  refine ⟨fun h0 => ?_, fun e h0 => ?_⟩
  · obtain ⟨e, h0', -⟩ | ⟨h0', -⟩ | ⟨-, -, hx⟩ | ⟨-, -, -, hx⟩ | ⟨-, -, -, hx⟩ := xfer_cases p frame s
    · cases h0.symm.trans h0'
    · cases h0.symm.trans h0'
    · cases hx.symm.trans h
    · cases hx.symm.trans h
    · cases hx.symm.trans h
      exact ⟨_, _, rfl⟩
  · cases (xfer_select_err p frame h0).symm.trans h
    exact ⟨rfl, rfl⟩

end Sys2Proof.Machine
end

section
/-! ### The events of a sequence, panel by panel (R172, R176, R177, R179) -/

namespace Sys2Proof.Machine

/-- The events of a transfer: a select not answered Ok ends it, and so does an SPI transfer that is never answered (R170,
R172, R221). -/
theorem Platform.eventsAt_cases (pl : Platform) (P : Params) (p : Panel) (frame : List Byte) (n : Nat) :
    (pl.answer n ≠ .ok ∧ pl.eventsAt P p frame n = [.pinWrite (P.cs p) .low (pl.answer n)]) ∨
    (pl.answer n = .ok ∧ pl.answer (n + 1) = .never ∧
      pl.eventsAt P p frame n = [.pinWrite (P.cs p) .low .ok, .spiTransfer (P.conn p) frame .never]) ∨
    (pl.answer n = .ok ∧ pl.answer (n + 1) ≠ .never ∧
      pl.eventsAt P p frame n = xferEvents P p frame .ok (pl.answer (n + 1)) (pl.answer (n + 2))) := by
  cases h0 : pl.answer n with
  | err e | never => simp [Platform.eventsAt, Platform.callsAt, xferEvents, h0]
  | ok => cases h1 : pl.answer (n + 1) <;> simp [Platform.eventsAt, Platform.callsAt, xferEvents, h0, h1]

/-- A transfer selects its panel's pin once, whatever the platform answers (R170). -/
theorem Platform.selectedPin_eventsAt (pl : Platform) (P : Params) (p : Panel) (frame : List Byte) (n : Nat) :
    (pl.eventsAt P p frame n).filterMap Event.selectedPin = [P.cs p] := by
  obtain ⟨-, h⟩ | ⟨-, -, h⟩ | ⟨-, -, h⟩ := pl.eventsAt_cases P p frame n <;> rw [h] <;> rfl

theorem selectedPin_settleEvents (P : Params) (job : Job) :
    (settleEvents P job).filterMap Event.selectedPin = [] := by
  by_cases h : job.settle <;> simp [settleEvents, h, Event.selectedPin]

/-- Where every frame is attempted, each selects its own panel's pin (R176, R177). -/
theorem selectedPin_sequenceEvents (P : Params) (pl : Platform) (jobs : List Job) (n : Nat) :
    (sequenceEvents P pl jobs n).filterMap Event.selectedPin = jobs.map fun job => P.cs job.panel := by
  induction jobs generalizing n with
  | nil => rfl
  | cons job rest ih =>
    rw [sequenceEvents, ← settleEvents, List.filterMap_append, List.filterMap_append, pl.selectedPin_eventsAt,
      selectedPin_settleEvents, ih]
    rfl

theorem map_cs_panelJobs (P : Params) (p : Panel) (b : Bool) (frames : List (List Byte)) :
    ((panelJobs p b frames).map fun job => P.cs job.panel) = List.replicate frames.length (P.cs p) := by
  simp [panelJobs, Function.comp_def]

theorem map_cs_bothPanels (P : Params) (b : Bool) (frames : List (List Byte)) :
    ((bothPanels b frames).map fun job => P.cs job.panel) =
      List.replicate frames.length P.csA ++ List.replicate frames.length P.csB := by
  rw [bothPanels, List.map_append, map_cs_panelJobs, map_cs_panelJobs]
  rfl

/-- A panel command that does not abort and completes has attempted every frame (R152, R174, R176, R177). -/
theorem Plan.exec_attempts {s s0 t : State} {i : Instr} {jobs : List Job} (h : Plan s i false jobs s0)
    (he : exec i s = .next t) (hbusy : t.busy = false) :
    t.ev = s.ev ++ sequenceEvents s.params s.platform jobs 0 := by
  obtain ⟨evs, n, hr, rfl⟩ := h.exec_completed he hbusy
  obtain ⟨n', hn⟩ := runJobs_events hr
  have hev : s0.ev ++ evs = _ := congrArg State.ev hn
  rw [finish_ev, State.logged_ev, hev, State.logged_ev, h.params_ev.1, h.params_ev.2, h.inputs.2]

/-- Settles O34: without an abort every frame of INIT and of SHUTDOWN is attempted, and each selects its panel's pin. -/
theorem seqContinueSendsEveryFrame : Obligations.SeqContinueSendsEveryFrame := by
  intro s t habort hbusy
  refine ⟨fun h => ?_, fun hp h => ?_⟩
  · have hplan := Plan.init (s := s)
    rw [habort] at hplan
    exact ⟨_, hplan.exec_attempts h hbusy, rfl, by rw [selectedPin_sequenceEvents, map_cs_bothPanels]; rfl⟩
  · have hplan := Plan.shutdown hp
    rw [habort] at hplan
    exact ⟨_, hplan.exec_attempts h hbusy, rfl, by rw [selectedPin_sequenceEvents, map_cs_bothPanels]; rfl⟩

/-! Panel A before panel B. -/

/-- A transfer acts on its own panel (R170). -/
theorem Platform.eventsAt_onPanel (pl : Platform) (P : Params) (p : Panel) (frame : List Byte) (n : Nat) :
    ∀ e ∈ pl.eventsAt P p frame n, e.onPanel P p := by
  obtain ⟨-, h⟩ | ⟨-, -, h⟩ | ⟨-, -, h⟩ := pl.eventsAt_cases P p frame n <;> rw [h] <;>
    simp [xferEvents, Event.onPanel]

theorem settleEvents_onPanel (P : Params) (job : Job) (p : Panel) : ∀ e ∈ settleEvents P job, e.onPanel P p := by
  by_cases h : job.settle <;> simp [settleEvents, h, Event.onPanel]

/-- A sequence of one panel's frames acts on that panel (R179). -/
theorem sentEvents_onPanel (P : Params) (pl : Platform) (abort : Bool) {p : Panel} {jobs : List Job}
    (hjobs : ∀ job ∈ jobs, job.panel = p) (n : Nat) : ∀ e ∈ sentEvents P pl abort jobs n, e.onPanel P p := by
  induction jobs generalizing n with
  | nil => simp [sentEvents]
  | cons job rest ih =>
    obtain ⟨rfl, hrest⟩ := List.forall_mem_cons.1 hjobs
    refine List.forall_mem_append.2 ⟨pl.eventsAt_onPanel P job.panel job.bytes n, ?_⟩
    split
    · simp
    · exact List.forall_mem_append.2 ⟨settleEvents_onPanel P job job.panel, ih hrest _⟩

/-- The events of two sequences, one after the other: the first one's, and then none or the second one's (R152, R176). -/
theorem sentEvents_append (P : Params) (pl : Platform) (abort : Bool) (jobs jobs' : List Job) (n : Nat) :
    sentEvents P pl abort (jobs ++ jobs') n = sentEvents P pl abort jobs n ∨
    ∃ m, sentEvents P pl abort (jobs ++ jobs') n = sentEvents P pl abort jobs n ++ sentEvents P pl abort jobs' m := by
  induction jobs generalizing n with
  | nil => exact .inr ⟨n, rfl⟩
  | cons job rest ih =>
    simp only [List.cons_append, sentEvents]
    split
    · exact .inl rfl
    · obtain h | ⟨m, h⟩ := ih (n + pl.callsAt n)
      · exact .inl (by rw [h])
      · exact .inr ⟨m, by rw [h]; simp only [List.append_assoc]⟩

theorem panel_of_mem_panelJobs {p : Panel} {b : Bool} {frames : List (List Byte)} :
    ∀ job ∈ panelJobs p b frames, job.panel = p := by
  intro job hjob
  obtain ⟨_, -, rfl⟩ := List.mem_map.1 hjob
  rfl

/-- Frames for panel A, and then frames for panel B (R179). -/
def PanelOrdered (jobs : List Job) : Prop :=
  ∃ jobsA jobsB, jobs = jobsA ++ jobsB ∧ (∀ job ∈ jobsA, job.panel = .a) ∧ ∀ job ∈ jobsB, job.panel = .b

theorem panelOrdered_nil : PanelOrdered [] := ⟨[], [], rfl, nofun, nofun⟩

theorem panelOrdered_panelJobs (b b' : Bool) (frames frames' : List (List Byte)) :
    PanelOrdered (panelJobs .a b frames ++ panelJobs .b b' frames') :=
  ⟨_, _, rfl, panel_of_mem_panelJobs, panel_of_mem_panelJobs⟩

/-- A command's frames are panel A's and then panel B's (R179). -/
theorem commandJobs_panelOrdered (i : Instr) (s : State) : PanelOrdered (commandJobs i s) := by
  cases i with
  | setPixel | setAll | clear | setRotation | getShape => exact panelOrdered_nil
  | init => exact panelOrdered_panelJobs true true _ _
  | showPanels | setBrightness | shutdown =>
    cases hp : s.phase with
    | uninit => simpa only [commandJobs, hp] using panelOrdered_nil
    | ready =>
      simp only [commandJobs, hp]
      exact panelOrdered_panelJobs false false _ _

/-- Settles O36: a command's frames are panel A's and then panel B's, and so are their events. -/
theorem panelABeforePanelB : Obligations.PanelABeforePanelB := by
  intro i s t h
  obtain ⟨jobsA, jobsB, hjobs, hA, hB⟩ := commandJobs_panelOrdered i s
  have hev := exec_ev h
  rw [hjobs] at hev
  obtain hsent | ⟨m, hsent⟩ := sentEvents_append s.params s.platform (abortPolicy s.params i) jobsA jobsB 0 <;>
    rw [hsent] at hev
  · exact ⟨_, [], by rw [hev, List.append_nil], sentEvents_onPanel _ _ _ hA 0, nofun⟩
  · exact ⟨_, _, by rw [hev, List.append_assoc], sentEvents_onPanel _ _ _ hA 0, sentEvents_onPanel _ _ _ hB m⟩

/-! What follows a failed call. -/

/-- What may stand around an event whose call failed, where its command aborts: nothing after a pin write, and around an SPI
transfer its own select and release (R170, R176, R177). -/
def Event.Aborts (P : Params) (before : List Event) (event : Event) (after : List Event) : Prop :=
  match event with
  | .pinWrite _ _ (.err _) => after = []
  | .spiTransfer conn _ (.err _) =>
      ∃ (p : Panel) (earlier : List Event) (answer : Answer), conn = P.conn p ∧
        before = earlier ++ [.pinWrite (P.cs p) .low .ok] ∧ after = [.pinWrite (P.cs p) .high answer]
  | _ => True

/-- Each failed call of a trace ends it so. -/
def AbortsAtFailure (P : Params) (evs : List Event) : Prop :=
  ∀ before event after, evs = before ++ event :: after → event.Aborts P before after

theorem Event.aborts_of_failed_eq_none {P : Params} {event : Event} (h : event.failed = none) (before after : List Event) :
    event.Aborts P before after := by
  cases event with
  | sleep d => trivial
  | pinWrite pin level result =>
    cases result with
    | ok | never => trivial
    | err e => cases level <;> cases h
  | spiTransfer conn bytes result =>
    cases result with
    | ok | never => trivial
    | err e => cases h

theorem Event.Aborts.prepend {P : Params} {before after : List Event} {event : Event} (h : event.Aborts P before after)
    (evs : List Event) : event.Aborts P (evs ++ before) after := by
  cases event with
  | sleep d => trivial
  | pinWrite pin level result => cases result <;> exact h
  | spiTransfer conn bytes result =>
    cases result with
    | ok | never => trivial
    | err e =>
      obtain ⟨p, earlier, answer, hconn, hbefore, hafter⟩ := h
      exact ⟨p, evs ++ earlier, answer, hconn, by rw [hbefore, List.append_assoc], hafter⟩

theorem abortsAtFailure_nil (P : Params) : AbortsAtFailure P [] := by
  intro before event after heq
  simp at heq

/-- Events without a failure before a trace change nothing of how it ends. -/
theorem AbortsAtFailure.append {P : Params} {clean evs : List Event} (hclean : ∀ e ∈ clean, e.failed = none)
    (h : AbortsAtFailure P evs) : AbortsAtFailure P (clean ++ evs) := by
  intro before event after heq
  obtain ⟨mid, hbefore, hevs⟩ | ⟨mid, hclean', hafter⟩ := List.append_eq_append_iff.1 heq
  · subst hbefore
    exact (h mid event after hevs).prepend clean
  · cases mid with
    | nil =>
      rw [List.append_nil] at hclean'
      subst hclean'
      simpa using (h [] event after hafter.symm).prepend clean
    | cons e mid =>
      obtain ⟨rfl, -⟩ := List.cons.inj hafter
      exact Event.aborts_of_failed_eq_none (hclean event (by simp [hclean'])) _ _

/-- A transfer whose select is answered Ok: a failed SPI transfer stands between its select and its release (R170). -/
theorem abortsAtFailure_xferEvents (P : Params) (p : Panel) (frame : List Byte) (spi release : Answer) :
    AbortsAtFailure P (xferEvents P p frame .ok spi release) := by
  intro before event after heq
  match before, heq with
  | [], heq => cases heq; trivial
  | [_], heq =>
    cases heq
    cases spi with
    | ok | never => trivial
    | err e => exact ⟨p, [], release, rfl, rfl, rfl⟩
  | [_, _], heq =>
    cases heq
    cases release with
    | ok | never => trivial
    | err e => rfl
  | _ :: _ :: _ :: _, heq => simp [xferEvents] at heq

theorem abortsAtFailure_eventsAt (P : Params) (pl : Platform) (p : Panel) (frame : List Byte) (n : Nat) :
    AbortsAtFailure P (pl.eventsAt P p frame n) := by
  obtain ⟨-, h⟩ | ⟨-, -, h⟩ | ⟨-, -, h⟩ := pl.eventsAt_cases P p frame n <;> rw [h]
  · intro before event after heq
    obtain ⟨rfl, rfl, rfl⟩ : before = [] ∧ .pinWrite (P.cs p) .low (pl.answer n) = event ∧ after = [] := by
      cases before <;> simp_all
    simp only [Event.Aborts]
    split <;> trivial
  · exact (abortsAtFailure_nil P).append (clean := [_, _]) (by simp [Event.failed])
  · exact abortsAtFailure_xferEvents P p frame _ _

/-- A transfer returns without a failure exactly where its three calls are answered Ok (R170, R171, R221). -/
theorem Platform.answers_ok_iff (pl : Platform) (n : Nat) :
    pl.hangsAt n = false ∧ pl.failureAt n = none ↔
      pl.answer n = .ok ∧ pl.answer (n + 1) = .ok ∧ pl.answer (n + 2) = .ok := by
  cases h0 : pl.answer n with
  | err e | never => simp [hangsAt, failureAt, h0]
  | ok =>
    cases h1 : pl.answer (n + 1) with
    | never => simp [hangsAt, h0, h1]
    | ok | err e => cases h2 : pl.answer (n + 2) <;> simp [hangsAt, failureAt, h0, h1, h2]

/-- The events of a transfer that returns without a failure. -/
theorem Platform.eventsAt_of_no_failure {pl : Platform} {n : Nat} (hh : pl.hangsAt n = false) (hf : pl.failureAt n = none)
    (P : Params) (p : Panel) (frame : List Byte) : pl.eventsAt P p frame n = xferEvents P p frame .ok .ok .ok := by
  obtain ⟨h0, h1, h2⟩ := (pl.answers_ok_iff n).1 ⟨hh, hf⟩
  simp [eventsAt, callsAt, xferEvents, h0, h1, h2]

theorem failed_settleEvents (P : Params) (job : Job) : ∀ e ∈ settleEvents P job, e.failed = none := by
  by_cases h : job.settle <;> simp [settleEvents, h, Event.failed]

/-- A sequence that aborts ends at its first failed call (R176, R177). -/
theorem abortsAtFailure_sentEvents (P : Params) (pl : Platform) (jobs : List Job) (n : Nat) :
    AbortsAtFailure P (sentEvents P pl true jobs n) := by
  induction jobs generalizing n with
  | nil => exact abortsAtFailure_nil P
  | cons job rest ih =>
    rw [sentEvents]
    split
    · rw [List.append_nil]
      exact abortsAtFailure_eventsAt P pl job.panel job.bytes n
    · rename_i hgoes
      obtain ⟨hh, hf⟩ : pl.hangsAt n = false ∧ pl.failureAt n = none := by simpa using hgoes
      rw [Platform.eventsAt_of_no_failure hh hf]
      exact ((ih _).append (failed_settleEvents P job)).append (by simp [xferEvents, Event.failed])

/-- Settles O33: both commands abort at the first failure, and a failed call ends their trace as it ends its transfer's. -/
theorem seqAbortStopsAtFirstFailure : Obligations.SeqAbortStopsAtFirstFailure := by
  intro i s t before after hi habort h
  have hpolicy : abortPolicy s.params i = true := by obtain rfl | rfl := hi <;> exact habort
  have hev := exec_ev h
  rw [hpolicy] at hev
  have haborts : ∀ event, t.ev = s.ev ++ before ++ event :: after → event.Aborts s.params before after := by
    intro event heq
    rw [heq, List.append_assoc, List.append_cancel_left_eq] at hev
    exact abortsAtFailure_sentEvents s.params s.platform (commandJobs i s) 0 before event after hev.symm
  exact ⟨fun pin level e heq => haborts _ heq, fun conn bytes e heq => haborts _ heq⟩

end Sys2Proof.Machine
end

section
/-! ### The failing frame's report (R170, R171, R174, R176, R177, R213) -/

namespace Sys2Proof.Machine

/-- What a transfer does when its three calls are answered Ok, in the terms of `sequenceFailure`. -/
theorem Platform.transfer_of_allOk {pl : Platform} {n : Nat} (h : ∀ k < 3, pl.answer (n + k) = .ok) :
    pl.hangsAt n = false ∧ pl.failureAt n = none ∧ pl.callsAt n = 3 := by
  have h0 : pl.answer n = .ok := h 0 (by decide)
  have h1 := h 1 (by decide)
  obtain ⟨hh, hf⟩ := (pl.answers_ok_iff n).2 ⟨h0, h1, h 2 (by decide)⟩
  exact ⟨hh, hf, by simp [callsAt, h0, h1]⟩

/-- Where every call before frame m is answered Ok and frame m fails, that failure is the sequence's (R213, R214). -/
theorem sequenceFailure_of_failureAt {pl : Platform} {jobs : List Job} {m n : Nat} {job : Job} {xferStep : XferStep}
    {e : IOError} (hjob : jobs[m]? = some job) (hok : ∀ k < 3 * m, pl.answer (n + k) = .ok)
    (hfail : pl.failureAt (n + 3 * m) = some (xferStep, e)) :
    sequenceFailure pl jobs n = some (job.failure xferStep e) := by
  induction jobs generalizing m n with
  | nil => simp at hjob
  | cons first rest ih =>
    cases m with
    | zero =>
      obtain rfl : first = job := by simpa using hjob
      rw [Nat.mul_zero, Nat.add_zero] at hfail
      simp only [sequenceFailure, hfail]
      rfl
    | succ m =>
      obtain ⟨-, hnone, hcalls⟩ := Platform.transfer_of_allOk fun k hk => hok k (by omega)
      simp only [sequenceFailure, hnone, hcalls]
      refine ih (by simpa using hjob) (fun k hk => ?_) ?_
      · rw [Nat.add_assoc]
        exact hok (3 + k) (by omega)
      · rwa [Nat.add_assoc, show 3 + 3 * m = 3 * (m + 1) by omega]

/-- A sequence that aborts returns where every call before its failing frame is answered Ok (R176, R177). -/
theorem hangs_runJobs_of_failureAt {jobs : List Job} {m : Nat} {job : Job} {xferStep : XferStep} {e : IOError}
    {first : Option Failure} {s : State} (hjob : jobs[m]? = some job) (hok : s.platform.AllOk (3 * m))
    (hfail : s.platform.failureAt (3 * m) = some (xferStep, e)) : (runJobs true jobs first s).hangs = false := by
  induction jobs generalizing m s with
  | nil => simp at hjob
  | cons head rest ih =>
    cases m with
    | zero =>
      rw [runJobs_abort_of_failureAt hfail]
      rfl
    | succ m =>
      obtain ⟨hh, hnone, hcalls⟩ := Platform.transfer_of_allOk (pl := s.platform) (n := 0) fun k hk =>
        hok (0 + k) (by omega)
      rw [runJobs_cons, xfer_eq, hh, hnone, hcalls]
      simp only [cond_false, Run.bind_done, settleEvents_eq]
      refine ih (by simpa using hjob) (fun k hk => ?_) ?_
      · simpa using hok (3 + k) (by omega)
      · simpa [Nat.mul_add, Nat.add_comm] using hfail

/-- A panel command whose frame m is the first to fail reports it, where it completes; and it completes where it aborts. PHASE
is the one its frames began with (R174, R176, R177, R213). -/
theorem Plan.exec_reports_frame {s s0 t : State} {i : Instr} {abort : Bool} {jobs : List Job} {m : Nat} {job : Job}
    {xferStep : XferStep} {e : IOError} (h : Plan s i abort jobs s0) (hjob : jobs[m]? = some job)
    (hok : s.platform.AllOk (3 * m)) (hfail : s.platform.failureAt (3 * m) = some (xferStep, e))
    (he : exec i s = .next t) (hcompletes : abort = true ∨ t.busy = false) :
    t.status = Completion.status (.transportError (job.failure xferStep e)) ∧ t.errIo = some e ∧ t.phase = s0.phase ∧
      t.busy = false := by
  have hseq := sequenceFailure_of_failureAt (n := 0) hjob (by simpa using hok) (by simpa using hfail)
  have hbusy : t.busy = false := by
    obtain rfl | hbusy := hcompletes
    · rw [← h.inputs.2] at hok hfail
      have hreturns := hangs_runJobs_of_failureAt (first := none) hjob hok hfail
      rw [h.exec_eq_close] at he
      cases hr : runJobs true jobs none s0 with
      | done out s1 =>
        rw [hr] at he
        cases he
        rfl
      | hung s1 =>
        rw [hr] at hreturns
        cases hreturns
    · exact hbusy
  obtain ⟨evs, n, -, rfl⟩ := h.exec_completed he hbusy
  rw [hseq]
  exact ⟨rfl, rfl, by simp [phaseAfter], rfl⟩

/-- STATUS of a failing frame (R31, R213). -/
theorem status_transportError (p : Panel) (xferStep : XferStep) {k : Nat} (hk : k < 8) (e : IOError) :
    Completion.status (.transportError ⟨p, xferStep, k, e⟩) =
      BitVec.ofNat 32 (2 + (if p = .b then 16 else 0) + 32 * xferStep.code.toNat + 256 * k) := by
  simp only [Completion.status, Completion.code]
  revert k
  cases p <;> cases xferStep <;> decide

/-- Frame k of one panel's sequence (R175, R177). -/
theorem getElem?_panelJobs (p : Panel) (b : Bool) {frames : List (List Byte)} {k : Nat} (hk : k < frames.length) :
    (panelJobs p b frames)[k]? = some ⟨p, k, frames[k], b && k == 0⟩ := by
  simp [panelJobs, hk]

/-- Frame k of panel p, in the sequence of both panels (R175, R177, R179). -/
theorem exists_getElem?_bothPanels (b : Bool) {frames : List (List Byte)} (p : Panel) {k : Nat} (hk : k < frames.length) :
    ∃ bytes settle,
      (bothPanels b frames)[(if p = .b then frames.length else 0) + k]? = some ⟨p, k, bytes, settle⟩ := by
  refine ⟨frames[k], b && k == 0, ?_⟩
  rw [bothPanels]
  cases p with
  | a => rw [if_neg nofun, Nat.zero_add, List.getElem?_append_left (by simpa using hk), getElem?_panelJobs .a b hk]
  | b =>
    rw [if_pos rfl, List.getElem?_append_right (by simp), length_panelJobs, Nat.add_sub_cancel_left,
      getElem?_panelJobs .b b hk]

/-- SHOW's frames are numbered as a sequence of one frame a panel (R152, R213). -/
theorem exists_getElem?_showJobs (P : Params) (tb : Memory) (p : Panel) :
    ∃ bytes settle, (showJobs P tb)[if p = .b then 1 else 0]? = some ⟨p, 0, bytes, settle⟩ := by
  cases p <;> exact ⟨_, _, rfl⟩

/-- Each panel command begins with panel A's frame 0 (R152, R174, R175, R177, R179). -/
theorem Plan.exists_first {s s0 : State} {i : Instr} {abort : Bool} {jobs : List Job} (h : Plan s i abort jobs s0) :
    ∃ bytes settle, jobs[0]? = some ⟨.a, 0, bytes, settle⟩ := by
  cases h <;> exact ⟨_, _, rfl⟩

/-- INIT in either phase, and the other panel commands in READY, have a plan (R30). -/
theorem exists_plan {i : Instr} {s : State}
    (hi : i = .init ∨ s.phase = .ready ∧ (i = .showPanels ∨ (∃ br, i = .setBrightness br) ∨ i = .shutdown)) :
    ∃ abort jobs s0, Plan s i abort jobs s0 := by
  obtain rfl | ⟨hp, rfl | ⟨br, rfl⟩ | rfl⟩ := hi
  · exact ⟨_, _, _, .init⟩
  · exact ⟨_, _, _, .showPanels hp⟩
  · exact ⟨_, _, _, .setBrightness br hp⟩
  · exact ⟨_, _, _, .shutdown hp⟩

/-- Settles O40: the SPI failure is the transfer's, and the first transfer is panel A's frame 0. -/
theorem spiErrorBeforeReleaseError : Obligations.SpiErrorBeforeReleaseError := by
  refine ⟨fun p frame s e e' h0 h1 h2 => ?_, fun i s t e e' hi h0 h1 h2 he hbusy => ?_⟩
  · rw [xfer_answered p frame h0 (by simp [h1]) (by simp [h2]), h1]
    exact ⟨_, rfl⟩
  · have hfail : s.platform.failureAt (3 * 0) = some (.spi, e) := by simp [Platform.failureAt, h0, h1, h2]
    obtain ⟨abort, jobs, s0, hplan⟩ := exists_plan hi
    obtain ⟨bytes, settle, hfirst⟩ := hplan.exists_first
    obtain ⟨hstatus, herr, -, -⟩ := hplan.exec_reports_frame hfirst nofun hfail he (.inr hbusy)
    exact ⟨hstatus.trans (status_transportError .a .spi (k := 0) (by decide) e), herr⟩

/-- Settles O41: panel p's frame k is the frame of that number in the sequence of both panels. -/
theorem sequencesReportTheFailingFrame : Obligations.SequencesReportTheFailingFrame := by
  intro s t p k xferStep e
  refine ⟨fun hk hok hfail he hc => ?_, fun hk hp hok hfail he hc => ?_, fun i hi hp hok hfail he hbusy => ?_⟩
  · have hcalls : (if p = .b then 24 else 0) + 3 * k = 3 * ((if p = .b then 8 else 0) + k) := by split <;> omega
    rw [hcalls] at hok hfail
    obtain ⟨bytes, settle, hjob⟩ := exists_getElem?_bothPanels true (frames := initFrames s.params) p hk
    obtain ⟨hstatus, herr, hphase, hbusy⟩ := Plan.init.exec_reports_frame hjob hok hfail he hc
    exact ⟨hstatus.trans (status_transportError p xferStep hk e), herr, hphase, hbusy⟩
  · have hcalls : (if p = .b then 9 else 0) + 3 * k = 3 * ((if p = .b then 3 else 0) + k) := by split <;> omega
    rw [hcalls] at hok hfail
    obtain ⟨bytes, settle, hjob⟩ := exists_getElem?_bothPanels false (frames := shutdownFrames s.params) p hk
    obtain ⟨hstatus, herr, hphase, hbusy⟩ := (Plan.shutdown hp).exec_reports_frame hjob hok hfail he hc
    exact ⟨hstatus.trans (status_transportError p xferStep (hk.trans (by decide)) e), herr, hphase.trans hp, hbusy⟩
  · have hcalls : (if p = .b then 3 else 0) = 3 * (if p = .b then 1 else 0) := by split <;> rfl
    rw [hcalls] at hok hfail
    have hreport : ∀ {abort jobs s0}, Plan s i abort jobs s0 →
        (∃ bytes settle, jobs[if p = .b then 1 else 0]? = some ⟨p, 0, bytes, settle⟩) →
        t.status = BitVec.ofNat 32 (2 + (if p = .b then 16 else 0) + 32 * xferStep.code.toNat) ∧ t.errIo = some e := by
      rintro abort jobs s0 hplan ⟨bytes, settle, hjob⟩
      obtain ⟨hstatus, herr, -, -⟩ := hplan.exec_reports_frame hjob hok hfail he (.inr hbusy)
      exact ⟨hstatus.trans (status_transportError p xferStep (k := 0) (by decide) e), herr⟩
    obtain rfl | ⟨br, rfl⟩ := hi
    · exact hreport (.showPanels hp) (exists_getElem?_showJobs _ _ p)
    · exact hreport (.setBrightness br hp) (exists_getElem?_bothPanels false p (k := 0) (by simp))

end Sys2Proof.Machine
end

section
/-! ### How a command ends: completed, or stuck on a call that is never answered (R210 to R222) -/

namespace Sys2Proof.Machine

/-! What the events say of the answers. -/

/-- The unanswered events are the pin writes and the SPI transfers without an answer, and no Sleep (R178, R221). -/
theorem Event.unanswered_iff {e : Event} :
    e.unanswered = true ↔
      (∃ pin level, e = .pinWrite pin level .never) ∨ ∃ conn bytes, e = .spiTransfer conn bytes .never := by
  cases e with
  | pinWrite pin level result => cases result <;> simp [Event.unanswered]
  | spiTransfer conn bytes result => cases result <;> simp [Event.unanswered]
  | sleep d => simp [Event.unanswered]

/-- A transfer that returns has had every call answered (R170). -/
theorem XferTrace.answered {P : Params} {p : Panel} {frame : List Byte} {evs : List Event}
    {result : Option (XferStep × IOError)} (h : XferTrace P p frame evs result) :
    ∀ e ∈ evs, e.unanswered = false := by
  cases h with
  | selectFails e => simp [Event.unanswered]
  | sent spi release h1 h2 => simp [xferEvents, Event.unanswered, h1, h2]

theorem settleEvents_answered (P : Params) (job : Job) : ∀ e ∈ settleEvents P job, e.unanswered = false := by
  by_cases hs : job.settle <;> simp [settleEvents, hs, Event.unanswered]

/-- A sequence of frames that returns has had every call answered (R152, R176, R177). -/
theorem JobsTrace.answered {P : Params} {abort : Bool} {jobs : List Job} {first out : Option Failure}
    {evs : List Event} (h : JobsTrace P abort jobs first evs out) : ∀ e ∈ evs, e.unanswered = false := by
  induction h with
  | nil => simp
  | stopped _ hx => exact hx.answered
  | sent hx _ ih | goesOn _ hx _ ih =>
    exact List.forall_mem_append.2 ⟨List.forall_mem_append.2 ⟨hx.answered, settleEvents_answered P _⟩, ih⟩

/-- A transfer that never returns ends with its unanswered call (R221). -/
theorem XferHung.ends_unanswered {P : Params} {p : Panel} {frame : List Byte} {evs : List Event}
    (h : XferHung P p frame evs) : ∃ before last, evs = before ++ [last] ∧ last.unanswered = true := by
  cases h with
  | select => exact ⟨[], _, rfl, rfl⟩
  | spi => exact ⟨[_], _, rfl, rfl⟩
  | release spi => exact ⟨[_, _], _, rfl, rfl⟩

/-- A sequence of frames that never returns ends with its unanswered call (R221). -/
theorem JobsHung.ends_unanswered {P : Params} {abort : Bool} {jobs : List Job} {evs : List Event}
    (h : JobsHung P abort jobs evs) : ∃ before last, evs = before ++ [last] ∧ last.unanswered = true := by
  induction h with
  | here hx => exact hx.ends_unanswered
  | later _ _ _ ih =>
    obtain ⟨before, last, rfl, hlast⟩ := ih
    exact ⟨_, last, (List.append_assoc _ _ _).symm, hlast⟩

/-- STATUS and ERR_IO hold the previous result while a panel command sends its frames (R32). -/
theorem Plan.result_unchanged {s s0 : State} {i : Instr} {abort : Bool} {jobs : List Job} (h : Plan s i abort jobs s0) :
    s0.status = s.status ∧ s0.errIo = s.errIo := by
  cases h <;> exact ⟨rfl, rfl⟩

/-- A command has had every call answered and completes, or its last event is never answered and it is left with BUSY = 1 and
the previous result (R32, R221). -/
theorem exec_completes_or_hangs {i : Instr} {s t : State} (h : exec i s = .next t) :
    ∃ evs, t.ev = s.ev ++ evs ∧
      ((t.busy = false ∧ ∀ e ∈ evs, e.unanswered = false) ∨
        (t.busy = true ∧ t.status = s.status ∧ t.errIo = s.errIo ∧
          ∃ before last, evs = before ++ [last] ∧ last.unanswered = true)) := by
  cases hi : i.isPixel with
  | true =>
    obtain ⟨c, fb, rot, -, he⟩ := exec_pixelEffect hi s
    cases he.symm.trans h
    exact ⟨[], (List.append_nil _).symm, .inl ⟨rfl, nofun⟩⟩
  | false =>
    obtain ⟨-, -, he⟩ | ⟨_, _, s0, evs, n, out, hplan, htrace, he⟩ | ⟨_, _, s0, evs, n, hplan, hhung, he⟩ :=
      exec_panel hi s <;> cases he.symm.trans h
    · exact ⟨[], (List.append_nil _).symm, .inl ⟨rfl, nofun⟩⟩
    · exact ⟨evs, congrArg (· ++ evs) hplan.params_ev.2, .inl ⟨rfl, htrace.answered⟩⟩
    · obtain ⟨hstatus, herrIo⟩ := hplan.result_unchanged
      exact ⟨evs, congrArg (· ++ evs) hplan.params_ev.2,
        .inr ⟨hplan.busy, hstatus, herrIo, hhung.ends_unanswered⟩⟩

/-- Settles O42: a completed command has no unanswered event, and a stuck one ends with one. -/
theorem hangsExactlyOnAnUnansweredCall : Obligations.HangsExactlyOnAnUnansweredCall := by
  intro i s t h
  obtain ⟨evs, hev, ⟨hbusy, hanswered⟩ | ⟨hbusy, -, -, before, last, rfl, hlast⟩⟩ := exec_completes_or_hangs h
  · exact ⟨evs, hev, by simpa [hbusy] using hanswered⟩
  · exact ⟨_, hev, fun _ => ⟨last, by simp, hlast⟩, fun _ => hbusy⟩

/-- Settles O43: only a command whose last event is never answered leaves BUSY = 1, and a busy block's step changes nothing. -/
theorem hungCommandIsStuck : Obligations.HungCommandIsStuck := by
  intro i s t h hbusy
  obtain ⟨evs, hev, ⟨hdone, -⟩ | ⟨-, hstatus, herrIo, before, last, rfl, hlast⟩⟩ := exec_completes_or_hangs h
  · exact absurd (hbusy.symm.trans hdone) (by simp)
  · exact ⟨hstatus, herrIo, step_of_busy hbusy, before, last, by rw [hev, List.append_assoc],
      Event.unanswered_iff.1 hlast⟩

/-! The next state and the next command. -/

/-- Settles O9: a step does nothing, carries out a command, or refuses a word with ILLEGAL_COMMAND. -/
theorem everyStepHasNextState : Obligations.EveryStepHasNextState := by
  intro s
  obtain he | ⟨w, rest, -, -, ⟨i, -, he⟩ | he⟩ := step_cases s
  · exact ⟨_, he⟩
  · rw [he]
    exact exec_total i _
  · exact ⟨_, he⟩

/-- A command accepts no further word (R34). -/
theorem exec_cmds {i : Instr} {s t : State} (h : exec i s = .next t) : t.cmds = s.cmds := by
  cases hi : i.isPixel with
  | true =>
    obtain ⟨c, fb, rot, -, he⟩ := exec_pixelEffect hi s
    cases he.symm.trans h
    rfl
  | false => exact exec_panel_cmds hi h

/-- Settles O45: the host's next word still stands first, and it decodes to its command. -/
theorem completionAcceptsTheNextCommand : Obligations.CompletionAcceptsTheNextCommand := by
  intro i j s t rest hj hcmds h hbusy
  exact step_of_decode hbusy ((exec_cmds h).trans hcmds) (decodeOfEncode j hj)

/-! What a completion reports. -/

/-- The failure a completion reports, where it reports one (R213). -/
def Completion.failure : Completion → Option Failure
  | .transportError f => some f
  | .ok | .shape _ _ | .configError | .illegalCommand | .notInitialised => none

@[simp] theorem Completion.failure_ofFailure (out : Option Failure) : (Completion.ofFailure out).failure = out := by
  cases out <;> rfl

theorem Completion.eq_transportError_of_failure {c : Completion} {f : Failure} (h : c.failure = some f) :
    c = .transportError f := by
  cases c with
  | transportError g => exact congrArg Completion.transportError (Option.some.inj h)
  | ok | shape | configError | illegalCommand | notInitialised => cases h

/-- CODE, EPANEL, EPHASE, EFRAME and ERR_IO of a transport error (R31, R33, R213). -/
theorem transportError_reports (f : Failure) :
    statusCode (Completion.transportError f).status = 2 ∧
      statusEpanel (Completion.transportError f).status = f.panel.code ∧
      statusEphase (Completion.transportError f).status = f.step.code ∧
      statusEframe (Completion.transportError f).status = BitVec.ofNat 4 f.frame ∧
      (Completion.transportError f).errIo = some f.error := by
  obtain ⟨hcode, hpanel, hphase, -, hframe, -⟩ :=
    packStatus_fields 0 0 (BitVec.ofNat 4 f.frame) f.step.code f.panel.code 2#4
  exact ⟨hcode, hpanel, hphase, hframe, rfl⟩

/-- CODE, EPANEL, EPHASE, EFRAME and ERR_IO of any other completion (R32, R33, R211). -/
theorem Completion.reports_of_no_failure {c : Completion} (h : c.failure = none) :
    statusCode c.status ≠ 2 ∧ statusEpanel c.status = 0 ∧ statusEphase c.status = 0 ∧ statusEframe c.status = 0 ∧
      c.errIo = none := by
  cases c with
  | transportError f => cases h
  | shape w ht =>
    obtain ⟨hcode, hpanel, hphase, -, hframe, -⟩ := packStatus_fields (BitVec.ofNat 8 ht) (BitVec.ofNat 8 w) 0 0 0 0#4
    exact ⟨fun hne => absurd (hcode.symm.trans hne) (by decide), hpanel, hphase, hframe, rfl⟩
  | ok | configError | illegalCommand | notInitialised => decide

/-- The first failed event of a transfer that returns is the failure it reports (R170, R171). -/
theorem XferTrace.firstFailed_eq {P : Params} {p : Panel} {frame : List Byte} {evs : List Event}
    {result : Option (XferStep × IOError)} (h : XferTrace P p frame evs result) : firstFailed evs = result := by
  cases h with
  | selectFails e => rfl
  | sent spi release h1 h2 =>
    cases spi with
    | never => exact absurd rfl h1
    | err e => rfl
    | ok =>
      cases release with
      | never => exact absurd rfl h2
      | ok | err e => rfl

theorem firstFailed_append (evs evs' : List Event) :
    firstFailed (evs ++ evs') = (firstFailed evs).or (firstFailed evs') := List.findSome?_append

theorem firstFailed_settleEvents (P : Params) (job : Job) : firstFailed (settleEvents P job) = none :=
  List.findSome?_eq_none_iff.2 (failed_settleEvents P job)

/-- The step and the error of a failure. -/
def Failure.stepError (f : Failure) : XferStep × IOError := (f.step, f.error)

/-- A sequence of frames that returns reports the failure it began with, or else its first failed event (R213, R214). -/
theorem JobsTrace.stepError_eq {P : Params} {abort : Bool} {jobs : List Job} {first out : Option Failure}
    {evs : List Event} (h : JobsTrace P abort jobs first evs out) :
    out.map Failure.stepError = (first.map Failure.stepError).or (firstFailed evs) := by
  induction h with
  | nil first => simp [firstFailed]
  | sent hx _ ih => rw [ih, firstFailed_append, firstFailed_append, hx.firstFailed_eq, firstFailed_settleEvents]; rfl
  | @stopped _ _ first _ _ _ _ hx => rw [hx.firstFailed_eq]; cases first <;> rfl
  | @goesOn _ _ first _ _ _ _ _ _ hx _ ih =>
    rw [ih, firstFailed_append, firstFailed_append, hx.firstFailed_eq, firstFailed_settleEvents]
    cases first <;> rfl

/-- A sequence of frames that returns has a trace. -/
theorem runJobs_done_trace {abort : Bool} {jobs : List Job} {first out : Option Failure} {s t : State}
    (h : runJobs abort jobs first s = .done out t) :
    ∃ evs n, t = s.logged evs n ∧ JobsTrace s.params abort jobs first evs out := by
  obtain ⟨evs, n, _, hr, htrace⟩ | ⟨evs, n, hr, -⟩ := runJobs_trace abort jobs first s <;> cases hr.symm.trans h
  exact ⟨evs, n, rfl, htrace⟩

/-- A command has no frames and completes at once without a failure, or it has a plan (R30, R122, R211). -/
theorem exec_at_once_or_plan (i : Instr) (s : State) :
    (∃ c s1, exec i s = .next (finish c s1) ∧ s1.ev = s.ev ∧ c.failure = none ∧ commandJobs i s = []) ∨
      ∃ abort jobs s0, Plan s i abort jobs s0 := by
  cases hi : i.isPixel with
  | true =>
    obtain ⟨c, fb, rot, heff, he⟩ := exec_pixelEffect hi s
    exact .inl ⟨c, _, he, rfl, by cases heff <;> rfl, commandJobs_pixel hi s⟩
  | false =>
    obtain ⟨hp, hne, he⟩ | ⟨_, _, _, _, _, _, hplan, -, -⟩ | ⟨_, _, _, _, _, hplan, -, -⟩ := exec_panel hi s
    · exact .inl ⟨_, _, he, rfl, rfl, commandJobs_uninit hne hp⟩
    · exact .inr ⟨_, _, _, hplan⟩
    · exact .inr ⟨_, _, _, hplan⟩

/-- A command that completes does so with the first failure of its frames, which is its first failed event (R213, R214). -/
theorem exec_completion {i : Instr} {s t : State} (h : exec i s = .next t) (hbusy : t.busy = false) :
    ∃ (c : Completion) (evs : List Event),
      t.status = c.status ∧ t.errIo = c.errIo ∧ sequenceFailure s.platform (commandJobs i s) 0 = c.failure ∧
        t.ev = s.ev ++ evs ∧ firstFailed evs = c.failure.map Failure.stepError := by
  obtain ⟨c, s1, he, hev, hc, hjobs⟩ | ⟨abort, jobs, s0, hplan⟩ := exec_at_once_or_plan i s
  · cases he.symm.trans h
    exact ⟨c, [], rfl, rfl, by rw [hjobs, hc]; rfl, by simp [hev], by rw [hc]; rfl⟩
  · obtain ⟨evs, n, hr, rfl⟩ := hplan.exec_completed h hbusy
    obtain ⟨evs', n', hlogged, htrace⟩ := runJobs_done_trace hr
    have hev : s0.ev ++ evs = s0.ev ++ evs' := congrArg State.ev hlogged
    refine ⟨_, evs', rfl, rfl, ?_, by simpa [hplan.params_ev.2] using hev, ?_⟩
    · rw [Completion.failure_ofFailure, hplan.policy_jobs.2]
    · rw [Completion.failure_ofFailure, htrace.stepError_eq]
      rfl

/-- Settles O38: the completion's failure is the first of the command's frames and its first failed event, and STATUS and
ERR_IO report it. -/
theorem firstFailureIsReported : Obligations.FirstFailureIsReported := by
  intro i s t h hbusy
  obtain ⟨c, evs, hstatus, herrIo, hfailure, hev, hfirst⟩ := exec_completion h hbusy
  rw [hfailure, hstatus, herrIo]
  refine ⟨⟨evs, hev, hfirst⟩, ?_⟩
  cases hc : c.failure with
  | none => exact c.reports_of_no_failure hc
  | some f =>
    cases Completion.eq_transportError_of_failure hc
    exact transportError_reports f

/-! Completion where every call is answered. -/

/-- A transfer whose three calls are answered returns (R170). -/
theorem Platform.hangsAt_of_answered {pl : Platform} (h : pl.AllAnswered 3) : pl.hangsAt 0 = false := by
  have h0 := h 0 (by decide)
  have h1 := h 1 (by decide)
  have h2 := h 2 (by decide)
  simp only [hangsAt, Nat.zero_add]
  split <;> simp_all

theorem Platform.AllAnswered.advanceBy {pl : Platform} {m n : Nat} (h : pl.AllAnswered m) (k : Nat) (hk : k + n ≤ m) :
    (pl.advanceBy k).AllAnswered n := fun j hj => by
  rw [Platform.answer_advanceBy]
  exact h (k + j) (by omega)

/-- A sequence of frames returns where three calls a frame are answered (R152, R176, R177). -/
theorem hangs_runJobs_of_answered (abort : Bool) {jobs : List Job} (first : Option Failure) {s : State}
    (h : s.platform.AllAnswered (3 * jobs.length)) : (runJobs abort jobs first s).hangs = false := by
  induction jobs generalizing first s with
  | nil => rfl
  | cons job rest ih =>
    rw [List.length_cons] at h
    have hcalls := s.platform.callsAt_le 0
    have hrest : (s.platform.advanceBy (s.platform.callsAt 0)).AllAnswered (3 * rest.length) :=
      Platform.AllAnswered.advanceBy h _ (by omega)
    rw [runJobs_cons, xfer_eq, Platform.hangsAt_of_answered fun k hk => h k (by omega)]
    simp only [cond_false, Run.bind_done, settleEvents_eq, State.logged_logged]
    cases s.platform.failureAt 0 with
    | none => exact ih first hrest
    | some failure =>
      cases abort with
      | true => rfl
      | false => exact ih _ hrest

theorem Run.eq_done_of_hangs {α : Type} {r : Run α} (h : r.hangs = false) : ∃ v s, r = .done v s := by
  cases r with
  | done v s => exact ⟨v, s, rfl⟩
  | hung s => cases h

/-- No panel command has more than INIT's sixteen frames (R175, R179). -/
theorem Plan.length_jobs_le {s s0 : State} {i : Instr} {abort : Bool} {jobs : List Job} (h : Plan s i abort jobs s0) :
    jobs.length ≤ 16 := by
  cases h with
  | showPanels | setBrightness => simp [showJobs_eq]
  | init => simp [initFrames]
  | shutdown => simp [shutdownFrames]

/-- Settles O44: 48 answers are three for each of at most sixteen frames. -/
theorem answeredCommandsComplete : Obligations.AnsweredCommandsComplete := by
  intro i s h
  obtain ⟨c, s1, he, -⟩ | ⟨abort, jobs, s0, hplan⟩ := exec_at_once_or_plan i s
  · exact ⟨_, he, rfl⟩
  · have hlen := hplan.length_jobs_le
    have hanswered : s0.platform.AllAnswered (3 * jobs.length) := by
      rw [hplan.inputs.2]
      exact fun k hk => h k (by omega)
    obtain ⟨out, s1, hr⟩ := Run.eq_done_of_hangs (hangs_runJobs_of_answered abort none hanswered)
    exact ⟨_, hplan.exec_eq_close, by rw [hr]; rfl⟩

end Sys2Proof.Machine
end

section
/-! ### The idle block and the block after reset (R240) -/

namespace Sys2Proof.Machine

/-- Settles O8: the step's equation where no word is presented. -/
theorem idleStepWaits : Obligations.IdleStepWaits :=
  fun _ => step_of_idle

/-- After reset the frame buffer is filled with black (R23, R240). -/
theorem reset_fb : State.reset.fb = fillSlots Rgb.black := rfl

/-- After reset the transfer buffer lists no byte (R240, log 11). -/
theorem reset_tb : State.reset.tb = [] := rfl

/-- Settles O46: each slot is read from the black fill and each TB byte from the empty list. -/
theorem resetValues : Obligations.ResetValues := by
  have hfb : ∀ i, i < 119 → readSlot State.reset.fb i = ⟨0, 0, 0⟩ := by
    intro i hi
    rw [reset_fb, readSlot_fillSlots _ hi]
    rfl
  have htb : ∀ a, State.reset.tb.read a = 0#8 := by
    intro a
    rw [reset_tb, Memory.read_nil]
  exact ⟨hfb, rfl, htb, rfl, rfl, rfl, rfl, rfl⟩

/-- The host reads after reset what it reads after a command completed with OK (R31, R33, R240). -/
theorem reset_eq_finish_ok : State.reset = finish .ok State.reset := rfl

/-- Settles O47: the open LUT is distinct whatever it is, TB lists no byte, STATUS and ERR_IO are those of OK, and an
empty EV has no frame and no transfer under way. -/
theorem resetIsLegal : Obligations.ResetIsLegal where
  params := resetParams_wf
  tb := legalTb_nil _
  status := by
    rw [reset_eq_finish_ok]
    exact legalStatus_of_reportable trivial
  errIo := by
    rw [reset_eq_finish_ok, finish_errIo, finish_status, statusCode_status]
    exact errIo_isSome_iff .ok
  frames := nofun
  framed := nofun
  betweenCommands _ := rfl

end Sys2Proof.Machine
end

section
/-! ### Words written out from the opcode map (R80 to R84) -/

namespace Sys2Proof

/-- The word of a well-formed command decodes to it (R81 to R83). -/
theorem decode_of_encode_eq {w : CmdWord} {i : Instr} (hwf : i.wellFormed = true) (hw : encode i = w) :
    decode w = .ok i :=
  hw ▸ decodeOfEncode i hwf

/-- The look-up fails where the word selects no row (R84). -/
theorem Row.find?_eq_none {w : CmdWord} (h : ∀ row : Row, row.selects w ≠ true) :
    Row.all.find? (fun row => row.selects w) = none :=
  List.find?_eq_none.2 fun row _ => h row

/-- A word with a row's OP that misses the row's match has a reserved bit set (R84). -/
theorem decode_eq_reservedBitSet {w : CmdWord} (row : Row) (hop : row.opcode = opField w)
    (hmiss : row.selects w ≠ true) : decode w = .error .reservedBitSet := by
  have hnone (row' : Row) : row'.selects w ≠ true := by
    intro h
    obtain rfl := Row.eq_of_opcode_eq (hop.trans (Row.opField_of_selects h))
    exact hmiss h
  rw [decode, Row.find?_eq_none hnone]
  have hany : Row.all.any (fun row => row.opcode == opField w) = true :=
    List.any_eq_true.2 ⟨row, row.mem_all, beq_iff_eq.2 hop⟩
  exact if_pos hany

/-- A word whose OP is no row's is refused as unassigned (R84). -/
theorem decode_eq_unassignedOpcode {w : CmdWord} (hop : ∀ row : Row, row.opcode ≠ opField w) :
    decode w = .error .unassignedOpcode := by
  rw [decode, Row.find?_eq_none fun row h => hop row (Row.opField_of_selects h).symm]
  refine if_neg fun hany => ?_
  obtain ⟨row, -, hrow⟩ := List.any_eq_true.1 hany
  exact hop row (beq_iff_eq.1 hrow)

/-- Settles O1: each legal word is its command's encoding, the two reserved-bit words miss the match of the row whose OP
they have, and 0x0A is no row's OP. -/
theorem writtenWordsDecode : Obligations.WrittenWordsDecode := by
  have noRow (row : Row) : row.opcode ≠ opField 0x0A00000000000000#64 := by cases row <;> decide
  refine ⟨decode_of_encode_eq ?_ ?_, decode_of_encode_eq ?_ ?_, decode_of_encode_eq ?_ ?_, decode_of_encode_eq ?_ ?_,
    decode_of_encode_eq ?_ ?_, decode_of_encode_eq ?_ ?_, decode_of_encode_eq ?_ ?_, decode_of_encode_eq ?_ ?_,
    decode_of_encode_eq ?_ ?_, decode_of_encode_eq ?_ ?_, decode_of_encode_eq ?_ ?_,
    decode_eq_reservedBitSet .setPixel ?_ ?_, decode_eq_reservedBitSet .clear ?_ ?_, decode_eq_unassignedOpcode noRow⟩
  all_goals decide

end Sys2Proof
end
